-- ==== Sys2Proof/Word.lean ====
section
/-! DEFINITION. The word types of the cipher core (10_state.md R11): every value is an unsigned bit vector
of fixed width, bit 0 the least significant (00_scope.md R6). A bit index is a number below 64
(92_eei_decisions.md D22), and a transposition table of N entries is a vector of N such indices. -/

namespace Sys2Proof

/-- A byte is 8 bits (20_memory.md R24). -/
abbrev Byte := BitVec 8

/-- Block: 64 bits (R11). -/
abbrev Block := BitVec 64

/-- Half-Block: 32 bits (R11). -/
abbrev Half := BitVec 32

/-- Key: 64 bits, of which 56 take part (R11, 43_key_schedule.md R76). -/
abbrev Key := BitVec 64

/-- Half-Key: 28 bits (R11). -/
abbrev HalfKey := BitVec 28

/-- Subkey, and the expanded half-block: 48 bits in the grouped layout (R11, 41_constant_tables.md R53). -/
abbrev Subkey := BitVec 48

/-- A source bit index in `[0, 63]`, typed so that no other can be written (R11, R45, R49, D22). -/
abbrev BitIndex := Fin 64

/-- A transposition table of `n` entries: entry `i` is the source bit index of destination bit `i`
(00_scope.md R8, 40_transposition_engine.md R47). -/
abbrev Table (n : Nat) := Vector BitIndex n

end Sys2Proof
end

