-- ==== Sys2Proof/Syntax.lean ====
section
/-! DEFINITION. The operations of the core (30_encoding.md R36), the command records they are presented as
and the response records they are answered by (R38). -/

namespace Sys2Proof

/-- The direction of a CBC operation: an operand, never a state (30_encoding.md R37, 10_state.md R14). -/
inductive Direction where
  | encrypt
  | decrypt
  deriving DecidableEq, Repr

/-- The four operations the host can ask of the core, and no others (R36). The length `L` of a CBC operation is
the length of `din`: a command whose `L` disagrees with its data is not expressible (R39, D24). -/
inductive Instr where
  /-- `INIT`: establish the derived final-permutation table (R50). -/
  | init
  /-- `LEN n`: the output length of an input of `n` bytes (R87). -/
  | len (n : Nat)
  /-- `CBC.ENC iv key DIN` (R91). -/
  | cbcEnc (iv : Block) (key : Key) (din : List Byte)
  /-- `CBC.DEC iv key DIN` (R92). -/
  | cbcDec (iv : Block) (key : Key) (din : List Byte)
  deriving DecidableEq, Repr

/-- The three record formats (R38). -/
inductive Format where
  | z
  | n
  | x
  deriving DecidableEq, Repr

/-- A command record as the host presents it: one constructor per format, its fields in the order of R38,
the 2-bit `op` first. Here the fields are raw: that `op` selects this format and that `len` is the number of
bytes of `din` is what the decoder checks. -/
inductive Command where
  | z (op : BitVec 2)
  | n (op : BitVec 2) (n : Nat)
  | x (op : BitVec 2) (iv : BitVec 64) (key : BitVec 64) (len : Nat) (din : List Byte)
  deriving DecidableEq, Repr

/-- Why a raw record is no command of R38 (93_implementation_defined.md U16). The encoding of an operation
never gives one, and every 2-bit `op` is legal (R40). -/
inductive Reject where
  /-- The record does not have the fields its `op` calls for (R38, R41). -/
  | formatMismatch
  /-- `L` is not the number of bytes of `DIN` (R39). -/
  | lengthMismatch
  deriving DecidableEq, Repr

/-- A response record (R38): format `Z` carries nothing, its arrival is the completion (R36, R104). There is no
status, no error code and no flag in any of them (R38, R100). -/
inductive Response where
  | z
  | n (m : Nat)
  | x (dout : List Byte)
  deriving DecidableEq, Repr

/-- What the host presents: a command record, and the capacity of the output buffer it supplies with it
(`none`: no buffer, the default model; 92_eei_decisions.md D10). -/
structure Presented where
  command : Command
  cap : Option Nat
  deriving DecidableEq, Repr

end Sys2Proof
end

