-- ==== Sys2Proof/Decode.lean ====
section
/-! DEFINITION. Decoding of command records (30_encoding.md R36 to R41) and, after it, the encoder. The 2-bit `op` is the
only encoded word: decoding it is total and never answers invalid (R40). What is rejected, by name, is a raw record that
R38 does not allow to be written down (93_implementation_defined.md U16). -/

namespace Sys2Proof

/-- `op` alone tells the record's format (R38, R41). -/
def formatOf (op : BitVec 2) : Format :=
  if op = 0b00#2 then .z else if op = 0b01#2 then .n else .x

/-- The direction bit of a CBC operation is `op[0]`: 0 encrypts, 1 decrypts (R36, R37). -/
def directionOf (d : BitVec 1) : Direction :=
  if d = 0#1 then .encrypt else .decrypt

/-- The direction's bit (R37). -/
def Direction.bit : Direction → BitVec 1
  | .encrypt => 0#1
  | .decrypt => 1#1

/-- The `op` field of a record: the first field of each (R38). -/
def Command.op : Command → BitVec 2
  | .z op => op
  | .n op _ => op
  | .x op _ _ _ _ => op

/-- The format a record's fields have (R38). -/
def Command.format : Command → Format
  | .z _ => .z
  | .n _ _ => .n
  | .x _ _ _ _ _ => .x

/-- The decoder: the operation a record presents, or why the record is none (R36, R38 to R41). -/
def decode (c : Command) : Except Reject Instr :=
  match c with
  | .z op => if formatOf op = .z then .ok .init else .error .formatMismatch
  | .n op n => if formatOf op = .n then .ok (.len n) else .error .formatMismatch
  | .x op iv key len din =>
    if formatOf op = .x then
      if len = din.length then
        match directionOf (op.extractLsb' 0 1) with
        | .encrypt => .ok (.cbcEnc iv key din)
        | .decrypt => .ok (.cbcDec iv key din)
      else .error .lengthMismatch
    else .error .formatMismatch

/-- The `op` code of an operation (the table of R36). -/
def Instr.opcode : Instr → BitVec 2
  | .init => 0b00#2
  | .len _ => 0b01#2
  | .cbcEnc _ _ _ => 0b10#2
  | .cbcDec _ _ _ => 0b11#2

/-- The encoder: the record of an operation, its fields in the order of R38. -/
def encode (i : Instr) : Command :=
  match i with
  | .init => .z i.opcode
  | .len n => .n i.opcode n
  | .cbcEnc iv key din => .x i.opcode iv key din.length din
  | .cbcDec iv key din => .x i.opcode iv key din.length din

/-- The record whose command word has the bits `w`, numbered as spec/opcode_table.json numbers them (`op` in bits 1
and 0), and whose operand fields are all zero. The table's word has 2 bits: a word with a higher bit set is no command
word (93_implementation_defined.md U17). -/
def tableCommand (_nbits w : Nat) : Option Command :=
  if w < 4 then
    let op := BitVec.ofNat 2 w
    match formatOf op with
    | .z => some (.z op)
    | .n => some (.n op 0)
    | .x => some (.x op 0 0 0 [])
  else none

/-- What the decoder reads from the record of `tableCommand`. -/
def decodeTableWord (nbits w : Nat) : Option Instr :=
  match tableCommand nbits w with
  | none => none
  | some c =>
    match decode c with
    | .ok i => some i
    | .error _ => none

end Sys2Proof
end

