-- ==== Sys2Proof/Machine/Tables.lean ====
section
/-! DEFINITION. The constant tables (10_state.md R20): they hold their values from the first moment, no operation
writes one, and so they are definitions and no fields of State. Contents: 41_constant_tables.md R54 to R63. Of
these only SHIFT is in the spec's source; the others are the tables of FIPS PUB 46-3 in the spec's re-indexing
(92_eei_decisions.md D5; notes/assumptions/3.md). An entry of a transposition table is a source bit index:
result bit `i` is source bit `T[i]` (R47, R126). -/

namespace Sys2Proof.Machine

/-- The initial transposition table (R54). -/
def IP : Table 64 :=
  #v[57, 49, 41, 33, 25, 17,  9,  1,
     59, 51, 43, 35, 27, 19, 11,  3,
     61, 53, 45, 37, 29, 21, 13,  5,
     63, 55, 47, 39, 31, 23, 15,  7,
     56, 48, 40, 32, 24, 16,  8,  0,
     58, 50, 42, 34, 26, 18, 10,  2,
     60, 52, 44, 36, 28, 20, 12,  4,
     62, 54, 46, 38, 30, 22, 14,  6]

/-- The expansion table; line `g` is group `g` (R56). -/
def E : Table 48 :=
  #v[27, 28, 29, 30, 31,  0,
     23, 24, 25, 26, 27, 28,
     19, 20, 21, 22, 23, 24,
     15, 16, 17, 18, 19, 20,
     11, 12, 13, 14, 15, 16,
      7,  8,  9, 10, 11, 12,
      3,  4,  5,  6,  7,  8,
     31,  0,  1,  2,  3,  4]

/-- The fixed 32-bit permutation table (R57). -/
def P : Table 32 :=
  #v[ 7, 28, 21, 10, 26,  2, 19, 13,
     23, 29,  5,  0, 18,  8, 24, 30,
     22,  1, 14, 27,  6,  9, 17, 31,
     15,  4, 20,  3, 11, 12, 25, 16]

/-- Permuted-choice-1, left half-key (R60). -/
def PC1L : Table 28 :=
  #v[28, 20, 12,  4, 61, 53, 45,
     37, 29, 21, 13,  5, 62, 54,
     46, 38, 30, 22, 14,  6, 63,
     55, 47, 39, 31, 23, 15,  7]

/-- Permuted-choice-1, right half-key (R60). -/
def PC1R : Table 28 :=
  #v[60, 52, 44, 36, 59, 51, 43,
     35, 27, 19, 11,  3, 58, 50,
     42, 34, 26, 18, 10,  2, 57,
     49, 41, 33, 25, 17,  9,  1]

/-- Permuted-choice-2; line `g` is group `g` (R61). -/
def PC2 : Table 48 :=
  #v[51, 55, 32, 45, 39, 42,
     46, 35, 50, 41, 28, 53,
     48, 30, 52, 44, 37, 33,
     54, 43, 36, 29, 49, 40,
      1,  9, 19, 25,  4, 15,
      8, 23, 11,  5, 16, 26,
      3, 22,  0, 17,  7, 12,
     24, 27, 20,  6, 14, 10]

/-- The shift schedule (R62). -/
def SHIFT : Vector Nat 16 :=
  #v[ 1,  1,  2,  2,  2,  2,  2,  2,  1,  2,  2,  2,  2,  2,  2,  1]

/-- The table that rotates a 28-bit half-key left by one place (R63). -/
def ROT1 : Table 28 :=
  #v[27,  0,  1,  2,  3,  4,  5,  6,  7,  8,  9, 10, 11, 12,
     13, 14, 15, 16, 17, 18, 19, 20, 21, 22, 23, 24, 25, 26]

/-- The table that rotates a 28-bit half-key left by two places (R63). -/
def ROT2 : Table 28 :=
  #v[26, 27,  0,  1,  2,  3,  4,  5,  6,  7,  8,  9, 10, 11,
     12, 13, 14, 15, 16, 17, 18, 19, 20, 21, 22, 23, 24, 25]

/-- The substitution table `S[0]`, one row per line, column 0 first (R58). -/
def S0 : Vector (Vector (BitVec 4) 16) 4 :=
  #v[#v[14,  4, 13,  1,  2, 15, 11,  8,  3, 10,  6, 12,  5,  9,  0,  7],
     #v[ 0, 15,  7,  4, 14,  2, 13,  1, 10,  6, 12, 11,  9,  5,  3,  8],
     #v[ 4,  1, 14,  8, 13,  6,  2, 11, 15, 12,  9,  7,  3, 10,  5,  0],
     #v[15, 12,  8,  2,  4,  9,  1,  7,  5, 11,  3, 14, 10,  0,  6, 13]]

/-- The substitution table `S[1]`, one row per line, column 0 first (R58). -/
def S1 : Vector (Vector (BitVec 4) 16) 4 :=
  #v[#v[15,  1,  8, 14,  6, 11,  3,  4,  9,  7,  2, 13, 12,  0,  5, 10],
     #v[ 3, 13,  4,  7, 15,  2,  8, 14, 12,  0,  1, 10,  6,  9, 11,  5],
     #v[ 0, 14,  7, 11, 10,  4, 13,  1,  5,  8, 12,  6,  9,  3,  2, 15],
     #v[13,  8, 10,  1,  3, 15,  4,  2, 11,  6,  7, 12,  0,  5, 14,  9]]

/-- The substitution table `S[2]`, one row per line, column 0 first (R58). -/
def S2 : Vector (Vector (BitVec 4) 16) 4 :=
  #v[#v[10,  0,  9, 14,  6,  3, 15,  5,  1, 13, 12,  7, 11,  4,  2,  8],
     #v[13,  7,  0,  9,  3,  4,  6, 10,  2,  8,  5, 14, 12, 11, 15,  1],
     #v[13,  6,  4,  9,  8, 15,  3,  0, 11,  1,  2, 12,  5, 10, 14,  7],
     #v[ 1, 10, 13,  0,  6,  9,  8,  7,  4, 15, 14,  3, 11,  5,  2, 12]]

/-- The substitution table `S[3]`, one row per line, column 0 first (R58). -/
def S3 : Vector (Vector (BitVec 4) 16) 4 :=
  #v[#v[ 7, 13, 14,  3,  0,  6,  9, 10,  1,  2,  8,  5, 11, 12,  4, 15],
     #v[13,  8, 11,  5,  6, 15,  0,  3,  4,  7,  2, 12,  1, 10, 14,  9],
     #v[10,  6,  9,  0, 12, 11,  7, 13, 15,  1,  3, 14,  5,  2,  8,  4],
     #v[ 3, 15,  0,  6, 10,  1, 13,  8,  9,  4,  5, 11, 12,  7,  2, 14]]

/-- The substitution table `S[4]`, one row per line, column 0 first (R58). -/
def S4 : Vector (Vector (BitVec 4) 16) 4 :=
  #v[#v[ 2, 12,  4,  1,  7, 10, 11,  6,  8,  5,  3, 15, 13,  0, 14,  9],
     #v[14, 11,  2, 12,  4,  7, 13,  1,  5,  0, 15, 10,  3,  9,  8,  6],
     #v[ 4,  2,  1, 11, 10, 13,  7,  8, 15,  9, 12,  5,  6,  3,  0, 14],
     #v[11,  8, 12,  7,  1, 14,  2, 13,  6, 15,  0,  9, 10,  4,  5,  3]]

/-- The substitution table `S[5]`, one row per line, column 0 first (R58). -/
def S5 : Vector (Vector (BitVec 4) 16) 4 :=
  #v[#v[12,  1, 10, 15,  9,  2,  6,  8,  0, 13,  3,  4, 14,  7,  5, 11],
     #v[10, 15,  4,  2,  7, 12,  9,  5,  6,  1, 13, 14,  0, 11,  3,  8],
     #v[ 9, 14, 15,  5,  2,  8, 12,  3,  7,  0,  4, 10,  1, 13, 11,  6],
     #v[ 4,  3,  2, 12,  9,  5, 15, 10, 11, 14,  1,  7,  6,  0,  8, 13]]

/-- The substitution table `S[6]`, one row per line, column 0 first (R58). -/
def S6 : Vector (Vector (BitVec 4) 16) 4 :=
  #v[#v[ 4, 11,  2, 14, 15,  0,  8, 13,  3, 12,  9,  7,  5, 10,  6,  1],
     #v[13,  0, 11,  7,  4,  9,  1, 10, 14,  3,  5, 12,  2, 15,  8,  6],
     #v[ 1,  4, 11, 13, 12,  3,  7, 14, 10, 15,  6,  8,  0,  5,  9,  2],
     #v[ 6, 11, 13,  8,  1,  4, 10,  7,  9,  5,  0, 15, 14,  2,  3, 12]]

/-- The substitution table `S[7]`, one row per line, column 0 first (R58). -/
def S7 : Vector (Vector (BitVec 4) 16) 4 :=
  #v[#v[13,  2,  8,  4,  6, 15, 11,  1, 10,  9,  3, 14,  5,  0, 12,  7],
     #v[ 1, 15, 13,  8, 10,  3,  7,  4, 12,  5,  6, 11,  0, 14,  9,  2],
     #v[ 7, 11,  4,  1,  9, 12, 14,  2,  0,  6, 10, 13, 15,  3,  5,  8],
     #v[ 2,  1, 14,  7,  4, 10,  8, 13, 15, 12,  9,  0,  3,  5,  6, 11]]

/-- `S[0..7]`: `S[i][row][col]` (R58). -/
def S : Vector (Vector (Vector (BitVec 4) 16) 4) 8 :=
  #v[S0, S1, S2, S3, S4, S5, S6, S7]

end Sys2Proof.Machine
end

