-- ==== Sys2Proof/Machine/Engine.lean ====
section
/-! DEFINITION. The bit-transposition engine (40_transposition_engine.md): GETBIT, SETBIT, TRANSPOSE, and the
derivation of the final-permutation table that INIT performs. All are pure and total (R45 to R49). -/

namespace Sys2Proof.Machine

/-- `GETBIT(v, i) = (v >> i) & 1` (R45). -/
def getBit (v : Block) (i : BitIndex) : BitVec 1 :=
  (v >>> i.val).setWidth 1

/-- `SETBIT(v, i, b)`: `v` with bit `i` replaced by `b` (R46). -/
def setBit (v : Block) (i : BitIndex) (b : BitVec 1) : Block :=
  (v &&& ~~~(1#64 <<< i.val)) ||| (b.setWidth 64 <<< i.val)

/-- `TRANSPOSE(v, T)`: bit `i` of the result is bit `T[i]` of `v`, for the `n` entries of `T`; the bits of the
64-bit result at and above `n` are zero (R47). A narrower source is zero-extended by the caller (R11). -/
def transpose {n : Nat} (v : Block) (t : Table n) (h : n ≤ 64 := by decide) : Block :=
  (List.finRange n).foldl (fun out i => setBit out (Fin.castLE h i) (getBit v t[i])) 0

/-- `FINAL[IP[i]] <- i` for `i` in `0 .. 63`, into the table as it stands (R50). Irreducible so that the elaborator does
not run the 64 writes while it compares two states. -/
@[irreducible] def deriveFinal (old : Table 64) : Table 64 :=
  (List.finRange 64).foldl (fun t i => t.set IP[i].val i IP[i].isLt) old

end Sys2Proof.Machine
end

