-- ==== Sys2Proof/Machine/KeySchedule.lean ====
section
/-! DEFINITION. The key schedule (43_key_schedule.md): its three steps and KEYSCHED over the registers `C`, `D` and
`SUBKEY[0..15]`. It checks nothing: every 64-bit key is legal (R76). -/

namespace Sys2Proof.Machine

/-- The registers KEYSCHED writes (10_state.md R12, R17). -/
structure KeyRegs where
  c : HalfKey
  d : HalfKey
  subkey : Vector Subkey 16
  deriving DecidableEq, Repr

/-- Step PC-1, left half-key (R72). -/
def pc1Left (key : Key) : HalfKey := (transpose key PC1L).setWidth 28

/-- Step PC-1, right half-key (R72). -/
def pc1Right (key : Key) : HalfKey := (transpose key PC1R).setWidth 28

/-- Step rotation of one half-key in round `r`: by `ROT1` if `SHIFT[r] = 1`, by `ROT2` otherwise (R73). -/
def rotateHalf (h : HalfKey) (r : Fin 16) : HalfKey :=
  (transpose (h.setWidth 64) (if SHIFT[r] = 1 then ROT1 else ROT2)).setWidth 28

/-- Step PC-2: the subkey from the concatenation `C ++ D`, `C` in bits `[55:28]` (R74). -/
def pc2 (c d : HalfKey) : Subkey :=
  (transpose ((c.setWidth 64 <<< 28) ||| d.setWidth 64) PC2).setWidth 48

/-- Round `r` of the schedule: rotate the halves as the round before left them, then store `SUBKEY[r]` (R73, R74). -/
def keyRound (k : KeyRegs) (r : Fin 16) : KeyRegs :=
  let c := rotateHalf k.c r
  let d := rotateHalf k.d r
  { c := c, d := d, subkey := k.subkey.set r.val (pc2 c d) r.isLt }

/-- `KEYSCHED(key)`: step PC-1, then rounds 0 to 15 in this order whatever the direction, into the subkey registers as
they stand (R75). -/
def keySchedule (old : Vector Subkey 16) (key : Key) : KeyRegs :=
  (List.finRange 16).foldl keyRound { c := pc1Left key, d := pc1Right key, subkey := old }

/-- The sixteen subkeys of a key, as a function of the key alone (R75, R77 (b)). All sixteen registers are written,
so what they held before is not seen: the zeros here are overwritten. -/
def subkeysOf (key : Key) : Vector Subkey 16 :=
  (keySchedule (Vector.replicate 16 0) key).subkey

end Sys2Proof.Machine
end

