-- ==== Sys2Proof/Machine/Round.lean ====
section
/-! DEFINITION. The round function (42_round_function.md): SBOX and F, pure and total. -/

namespace Sys2Proof.Machine

/-- `SBOX(i, g)`: the row is `g[5]g[0]`, the column is `g[4:1]`, in the `i`-th substitution table (R65). -/
def sbox (i : Fin 8) (g : BitVec 6) : BitVec 4 :=
  let row : Fin 4 := (g.extractLsb' 5 1 ++ g.extractLsb' 0 1).toFin
  let col : Fin 16 := (g.extractLsb' 1 4).toFin
  S[i][row][col]

/-- Group `i` of a 48-bit value is its bits `[6i+5 : 6i]` (R66). -/
def group (x : Subkey) (i : Fin 8) : BitVec 6 :=
  x.extractLsb' (6 * i.val) 6

/-- The eight substitution values concatenated, group 0 most significant (R66). -/
def substitute (x : Subkey) : Half :=
  (List.finRange 8).foldl (fun y i => (y <<< 4) ||| (sbox i (group x i)).setWidth 32) 0

/-- Expansion of a half-block from 32 to 48 bits by `E` (R66). -/
def expand (right : Half) : Subkey :=
  (transpose (right.setWidth 64) E).setWidth 48

/-- `F(right, subkey)` (R66). -/
def roundF (right : Half) (subkey : Subkey) : Half :=
  (transpose ((substitute (expand right ^^^ subkey)).setWidth 64) P).setWidth 32

end Sys2Proof.Machine
end

