-- ==== Sys2Proof/Machine/Block.lean ====
section
/-! DEFINITION. The single-block transform (44_des_block.md): its steps over the half-block registers, and DESBLK as a
function of the final table, the block, the key and the direction. -/

namespace Sys2Proof.Machine

/-- The half-block registers `L` and `R` (10_state.md R12). -/
structure Halves where
  l : Half
  r : Half
  deriving DecidableEq, Repr

/-- Steps 1 and 2: initial permutation, then the split, left half high (R78, R79). -/
def loadHalves (block : Block) : Halves :=
  let t := transpose block IP
  { l := t.extractLsb' 32 32, r := t.extractLsb' 0 32 }

/-- The subkey of Feistel round `r`: `SUBKEY[r]` to encrypt, `SUBKEY[15 - r]` to decrypt (R81). -/
def roundKey (sk : Vector Subkey 16) (dir : Direction) (r : Fin 16) : Subkey :=
  match dir with
  | .encrypt => sk[r]
  | .decrypt => sk[r.rev]

/-- One Feistel round with subkey `k`; both reads are of the old halves (R81). -/
def feistelRound (k : Subkey) (h : Halves) : Halves :=
  { l := h.r, r := h.l ^^^ roundF h.r k }

/-- Step 5: rounds 0 to 15, in this order in both directions (R81). -/
def feistel (sk : Vector Subkey 16) (dir : Direction) (h : Halves) : Halves :=
  (List.finRange 16).foldl (fun h r => feistelRound (roundKey sk dir r) h) h

/-- Steps 6 and 7: merge with the swap, `R` widened before it is shifted, then the final table (R82). -/
def mergeHalves (final : Table 64) (h : Halves) : Block :=
  transpose ((h.r.setWidth 64 <<< 32) ||| h.l.setWidth 64) final

/-- `DESBLK(block, key, direction)`, with the final table it reads made an argument (R83). -/
def desBlock (final : Table 64) (block : Block) (key : Key) (dir : Direction) : Block :=
  mergeHalves final (feistel (subkeysOf key) dir (loadHalves block))

end Sys2Proof.Machine
end

