-- ==== Sys2Proof/Machine/Operands.lean ====
section
/-! DEFINITION. The one operand form of the core: a byte sequence cut into 64-bit blocks. PACK and UNPACK fix the byte
order once (20_memory.md R25, R26); LEN rounds a length up (45_cbc.md R87); DIN is cut into blocks of 8 bytes and the
last one zero-padded (R88, R89). No operand is scaled, shifted or sign-extended (30_encoding.md R39). -/

namespace Sys2Proof.Machine

/-- PACK: byte `b_k` to bits `[8k+7 : 8k]`, little-endian; the bits above the bytes given are zero (R25). It is
applied to 1 to 8 bytes only. -/
def pack : List Byte → Block
  | [] => 0
  | b :: bs => b.setWidth 64 ||| (pack bs <<< 8)

/-- UNPACK: the 8 bytes `v[7:0], v[15:8], ..., v[63:56]`, in this order, lowest offset first (R26). -/
def unpack (v : Block) : List Byte :=
  (List.range 8).map fun k => v.extractLsb' (8 * k) 8

/-- `LEN(n) = ((n + 7) div 8) * 8` (R87). -/
def lenOf (n : Nat) : Nat := (n + 7) / 8 * 8

/-- `NB = LEN(L) / 8`, the number of blocks an operation of `L` bytes processes (R88). -/
def numBlocks (len : Nat) : Nat := lenOf len / 8

/-- `MemRead(addr, n)`: the `n` bytes of `DIN` at offsets `addr .. addr+n-1`, packed (00_scope.md R7, R25). -/
def memRead (din : List Byte) (addr n : Nat) : Block :=
  pack ((din.drop addr).take n)

/-- `MemWrite(addr, 8, v)`: the 8 bytes of `v` at offsets `addr .. addr+7` of `DOUT` (R7, R26). The core writes at the
end of `DOUT` only, where this appends (R29). -/
def memWrite (dout : List Byte) (addr : Nat) (v : Block) : List Byte :=
  dout.take addr ++ unpack v ++ dout.drop (addr + 8)

/-- Block `n` of `DIN`: a full block is 8 bytes (R88); the final partial block is the `L mod 8` bytes that remain,
zero-filled above them (R89). -/
def blockAt (din : List Byte) (n : Nat) : Block :=
  if 8 * n + 8 ≤ din.length then memRead din (8 * n) 8
  else memRead din (8 * n) (din.length % 8)

/-- The blocks of `DIN`, in order, left to right (R88). -/
def inputBlocks (din : List Byte) : List Block :=
  (List.range (numBlocks din.length)).map (blockAt din)

/-- A byte sequence followed by zero bytes up to the next multiple of 8 (R89, R95). -/
def zeroPad (bytes : List Byte) : List Byte :=
  bytes ++ List.replicate (lenOf bytes.length - bytes.length) 0

/-- `n + 7` does not fit in a length operand of `LENW` bits, that is `n > 2^LENW - 8` (R87, D11); never so when `LENW`
is unbounded. -/
def lengthTooWide (lenw : Option Nat) (n : Nat) : Bool :=
  match lenw with
  | none => false
  | some w => decide (2 ^ w < n + 8)

/-- The host's buffer holds fewer than `LEN(L)` bytes (60_exceptions.md R103); never so without a buffer (D10). -/
def bufferTooSmall (cap : Option Nat) (len : Nat) : Bool :=
  match cap with
  | none => false
  | some c => decide (c < lenOf len)

end Sys2Proof.Machine
end

