-- ==== Sys2Proof/Machine/Chain.lean ====
section
/-! DEFINITION. The chaining driver as a function (45_cbc.md): the chaining value is XORed in AFTER the block
encryption and BEFORE the block decryption, which is not textbook CBC (90_conflicts.md C1). The block step of the
machine (Ops.lean) uses the same three pieces; `cbcOutput` is the document's contract for the whole operation. -/

namespace Sys2Proof.Machine

/-- What the block transform is applied to: `B` to encrypt (R91), `B ^ CHAIN` to decrypt (R92). -/
def chainIn (dir : Direction) (b chain : Block) : Block :=
  match dir with
  | .encrypt => b
  | .decrypt => b ^^^ chain

/-- The output block `O` from the block transform's result: XORed with `CHAIN` to encrypt (R91), as it is to
decrypt (R92). -/
def chainOut (dir : Direction) (o chain : Block) : Block :=
  match dir with
  | .encrypt => o ^^^ chain
  | .decrypt => o

/-- The new chaining value: the output block to encrypt (R91), the input block, not the plaintext, to decrypt
(R92, 70_reset_and_hazards.md R125). -/
def chainNext (dir : Direction) (b out : Block) : Block :=
  match dir with
  | .encrypt => out
  | .decrypt => b

/-- The output block of one block step (R91, R92). -/
def cbcBlock (final : Table 64) (dir : Direction) (key : Key) (chain b : Block) : Block :=
  chainOut dir (desBlock final (chainIn dir b chain) key dir) chain

/-- The output blocks for a list of input blocks, from a chaining value on (R90). -/
def cbcBlocks (final : Table 64) (dir : Direction) (key : Key) (chain : Block) : List Block → List Block
  | [] => []
  | b :: bs =>
    let out := cbcBlock final dir key chain b
    out :: cbcBlocks final dir key (chainNext dir b out) bs

/-- `cbc(iv, key, input, direction) -> output`, with the final table it reads made an argument (R86, R90). -/
def cbcOutput (final : Table 64) (dir : Direction) (iv : Block) (key : Key) (din : List Byte) : List Byte :=
  (cbcBlocks final dir key iv (inputBlocks din)).flatMap unpack

end Sys2Proof.Machine
end

