-- ==== Sys2Proof/Config.lean ====
section
/-! DEFINITION. What the spec leaves open and the model must not fix: the contents of the registers that
10_state.md R21 and 93_implementation_defined.md U3, U4 call unspecified ("any value"), as constants with no
body, so that no proof can lean on a value of them (notes/assumptions/1.md and 2.md); and the defaults of the
two open parameters of 92_eei_decisions.md (LENW, cap). -/

namespace Sys2Proof.Config

/-- Entry `i` of `FINAL` at reset: unspecified (R21, R114, U3). -/
opaque freeFinal : Nat → BitIndex

/-- `L` between operations, after the `e`-th release of the working registers: any value (R21, U4). -/
opaque freeL : Nat → Half

/-- `R` between operations: any value (R21, U4). -/
opaque freeR : Nat → Half

/-- `C` between operations: any value (R21, U4). -/
opaque freeC : Nat → HalfKey

/-- `D` between operations: any value (R21, U4). -/
opaque freeD : Nat → HalfKey

/-- `SUBKEY[r]` between operations: any value (R21, U4). -/
opaque freeSubkey : Nat → Nat → Subkey

/-- `CHAIN` between operations: any value (R18, R21, U4). -/
opaque freeChain : Nat → Block

/-- The key-schedule round counter between operations: it has no reset value (R13, R21). -/
opaque freeKeyRound : Nat → Nat

/-- The Feistel round counter between operations: it has no reset value (R13, R21). -/
opaque freeFeistelRound : Nat → Nat

/-- The block counter between operations: it has no reset value (R13, R21). -/
opaque freeBlockIndex : Nat → Nat

/-- `LENW`, the width in bits of a length operand, in the default model: unbounded (R5, R87, D11). -/
def defaultLenw : Option Nat := none

/-- `cap`, the capacity of the host's output buffer, in the default model: no buffer (R30, R103, D10). -/
def defaultCap : Option Nat := none

end Sys2Proof.Config
end

