-- ==== Sys2Proof/Machine/State.lean ====
section
/-! DEFINITION. The state of the machine, the reasons a step can stop, and the state after reset. Persistent state is
FINAL and the ghost flag (10_state.md R10, R15, R16); the working registers and the operands are transaction-local
(R12, R13, R17 to R19); the rest is what the host presents and receives (30_encoding.md R38), the open parameter
LENW, and the model's own counter of free values. -/

namespace Sys2Proof.Machine

/-- The operands of the CBC operation in progress, held unchanged for its duration (R19). `L` is the length of `din`
(30_encoding.md R39). -/
structure Held where
  dir : Direction
  iv : Block
  key : Key
  din : List Byte
  deriving DecidableEq, Repr

/-- The core raises no exception, reports no error and returns no status (60_exceptions.md R100): there is no fault,
and the type of fault reasons has no constructor. Safe: nothing stops by a fault. -/
inductive Fault where
  deriving DecidableEq, Repr

/-- The reasons a step is refused. A refusal is the model's, not a trap of the hardware: it leaves no next state, so the
state stays as it was (60_exceptions.md R106). -/
inductive Refusal where
  /-- An operation with no meaning in this model. No arm raises it: every operation has its meaning. Safe. -/
  | notModelled (mnemonic : String)
  /-- A CBC operation before the first INIT, at every length, 0 included: raised by CBC.ENC and CBC.DEC before they do
  anything (60_exceptions.md R102). Safe: nothing about the output can be proved. -/
  | useBeforeInit
  /-- The host's output buffer is smaller than `LEN(L)`: raised by CBC.ENC and CBC.DEC before any byte is written
  (R103). Safe. -/
  | outputBufferTooSmall
  /-- `n + 7` does not fit in `LENW` bits: raised by LEN and by the CBC operations, only where `LENW` is finite
  (45_cbc.md R87, 92_eei_decisions.md D11). Safe. -/
  | lengthTooWide
  /-- The host presented a record that is no command of R38: raised by the step, never for an encoded operation
  (93_implementation_defined.md U16). Safe. -/
  | malformedCommand (why : Reject)
  deriving DecidableEq, Repr

/-- Everything the spec gives the core. -/
structure State where
  /-- `FINAL[0..63]`, the derived final-permutation table (R15). -/
  final : Table 64
  /-- `init_done`, the ghost flag (R16). -/
  initDone : Bool
  /-- `L`, the left half-block (R12). -/
  l : Half
  /-- `R`, the right half-block (R12). -/
  r : Half
  /-- `C`, the left half-key (R12). -/
  c : HalfKey
  /-- `D`, the right half-key (R12). -/
  d : HalfKey
  /-- `SUBKEY[0..15]` (R12, R17). -/
  subkey : Vector Subkey 16
  /-- `CHAIN`, the chaining value (R12, R18). -/
  chain : Block
  /-- The key-schedule round index (R13). -/
  keyRoundIx : Nat
  /-- The Feistel round index (R13). -/
  feistelIx : Nat
  /-- The block index `n` (R13). -/
  blockIx : Nat
  /-- The operands of the operation in progress; none between operations (R19, R21). -/
  held : Option Held
  /-- `DOUT`, the bytes produced so far by the operation in progress (20_memory.md R23). -/
  dout : List Byte
  /-- The operations the host presents, in the order it presents them (20_memory.md R32). -/
  pending : List Presented
  /-- The capacity of the output buffer supplied with the operation being served; `none` where there is no buffer
  (R103, D10). -/
  cap : Option Nat
  /-- The response records produced, oldest first: all that the host observes (R22, 30_encoding.md R38). -/
  responses : List Response
  /-- The open parameter `LENW` of this core, `none` where it is unbounded (R5, D11). No operation writes it. -/
  lenw : Option Nat
  /-- The model's own counter of free values: which contents the released registers take next. -/
  epoch : Nat
  deriving DecidableEq, Repr

/-- The working registers as they are when no operation is in progress: any value (R21, U4). Each release takes fresh
free values. -/
def State.releaseRegisters (s : State) : State :=
  { s with
    l := Config.freeL s.epoch
    r := Config.freeR s.epoch
    c := Config.freeC s.epoch
    d := Config.freeD s.epoch
    subkey := Vector.ofFn fun i => Config.freeSubkey s.epoch i.val
    chain := Config.freeChain s.epoch
    keyRoundIx := Config.freeKeyRound s.epoch
    feistelIx := Config.freeFeistelRound s.epoch
    blockIx := Config.freeBlockIndex s.epoch
    epoch := s.epoch + 1 }

/-- The state after reset (10_state.md R21, 70_reset_and_hazards.md R113): the ghost flag is 0, FINAL and the working
registers are unspecified, no operand is held, nothing is presented and nothing has been answered. -/
def State.reset : State :=
  { final := Vector.ofFn fun i => Config.freeFinal i.val
    initDone := false
    l := Config.freeL 0
    r := Config.freeR 0
    c := Config.freeC 0
    d := Config.freeD 0
    subkey := Vector.ofFn fun i => Config.freeSubkey 0 i.val
    chain := Config.freeChain 0
    keyRoundIx := Config.freeKeyRound 0
    feistelIx := Config.freeFeistelRound 0
    blockIx := Config.freeBlockIndex 0
    held := none
    dout := []
    pending := []
    cap := Config.defaultCap
    responses := []
    lenw := Config.defaultLenw
    epoch := 1 }

end Sys2Proof.Machine
end

