-- ==== Sys2Proof/Machine/Flags.lean ====
section
/-! DEFINITION. The core has no status flags, no condition codes and no control or status register (10_state.md R14), and
no operation writes a flag. The one flag is the model's ghost flag `init_done` (R16); its two uses stand here. -/

namespace Sys2Proof.Machine

/-- INIT sets the ghost flag; nothing clears it (R16, 70_reset_and_hazards.md R113). -/
def State.setInitDone (s : State) : State := { s with initDone := true }

/-- A CBC operation with the flag at 0 is used before initialisation (R16, 60_exceptions.md R102). -/
def State.usedBeforeInit (s : State) : Bool := !s.initDone

end Sys2Proof.Machine
end

