-- ==== Sys2Proof/Machine/Ops.lean ====
section
/-! DEFINITION. The named operations over the state. The core takes no exception: no state is saved, no mode changes, no
handler runs and there is no return (60_exceptions.md R100, R104 to R107); what stands in their place is the one shared
decision of the model-level refusals, `cbcRefusal`. The block step is the step machine of 45_cbc.md R93. -/

namespace Sys2Proof.Machine

/-- Produce a response record (30_encoding.md R38). -/
def State.respond (s : State) (resp : Response) : State :=
  { s with responses := s.responses ++ [resp] }

/-- Write all 64 entries of `FINAL` (40_transposition_engine.md R50). -/
def State.writeFinal (s : State) : State :=
  { s with final := deriveFinal s.final }

/-- Steps 1 and 2 of the block transform: the halves are loaded (44_des_block.md R78, R79). -/
def State.loadBlock (s : State) (block : Block) : State :=
  let h := loadHalves block
  { s with l := h.l, r := h.r }

/-- Steps 3 and 4: the whole key schedule, which leaves its round counter past its last value (R80, R13). -/
def State.runSchedule (s : State) (key : Key) : State :=
  let k := keySchedule s.subkey key
  { s with c := k.c, d := k.d, subkey := k.subkey, keyRoundIx := 16 }

/-- Step 5: the sixteen Feistel rounds over the registers (R81, R13). -/
def State.runRounds (s : State) (dir : Direction) : State :=
  let h := feistel s.subkey dir { l := s.l, r := s.r }
  { s with l := h.l, r := h.r, feistelIx := 16 }

/-- Steps 6 and 7: the block the registers and `FINAL` give (R82). -/
def State.blockResult (s : State) : Block :=
  mergeHalves s.final { l := s.l, r := s.r }

/-- The registers after the block transform of one block (R83). -/
def State.transformBlock (s : State) (block : Block) (key : Key) (dir : Direction) : State :=
  ((s.loadBlock block).runSchedule key).runRounds dir

/-- The start of a CBC operation: its operands are held, `CHAIN = iv`, `n = 0`, `DOUT` is empty (R90, R93). -/
def State.beginCbc (s : State) (dir : Direction) (iv : Block) (key : Key) (din : List Byte) : State :=
  { s with
    held := some { dir := dir, iv := iv, key := key, din := din }
    chain := iv
    blockIx := 0
    dout := [] }

/-- One block step: read block `n`, transform and chain it, append its 8 bytes to `DOUT`, `n <- n + 1` (R91 to R93).
It is enabled while an operation is in progress. -/
def State.blockStep (s : State) : State :=
  match s.held with
  | none => s
  | some h =>
    let b := blockAt h.din s.blockIx
    let t := s.transformBlock (chainIn h.dir b s.chain) h.key h.dir
    let out := chainOut h.dir t.blockResult s.chain
    { t with
      chain := chainNext h.dir b out
      dout := memWrite s.dout (8 * s.blockIx) out
      blockIx := s.blockIx + 1 }

/-- `k` block steps (R93). -/
def State.runBlocks : Nat → State → State
  | 0, s => s
  | k + 1, s => State.runBlocks k s.blockStep

/-- The end of a CBC operation: `DOUT` is the response; no operand and no chaining value survives it, and the working
registers are released (R18, R19, R90). -/
def State.endCbc (s : State) : State :=
  State.releaseRegisters { s.respond (.x s.dout) with held := none, dout := [] }

/-- Why a CBC operation on `len` bytes is refused, decided before it does anything: use before INIT comes before the
buffer (R102, R103, R105). The width check stands between them (notes/assumptions/7.md). -/
def State.cbcRefusal (s : State) (len : Nat) : Option Refusal :=
  if s.usedBeforeInit then some .useBeforeInit
  else if lengthTooWide s.lenw len then some .lengthTooWide
  else if bufferTooSmall s.cap len then some .outputBufferTooSmall
  else none

/-- A CBC operation from its command to its response, in one transition (20_memory.md R32, R90). -/
def cbcOperation (dir : Direction) (iv : Block) (key : Key) (din : List Byte) (s : State) :
    Host.Outcome State Fault Refusal :=
  match s.cbcRefusal din.length with
  | some r => .refused r
  | none => .next (State.runBlocks (numBlocks din.length) (s.beginCbc dir iv key din)).endCbc

end Sys2Proof.Machine
end

