-- ==== Sys2Proof/Machine/Cbc.lean ====
section
/-! DEFINITION. The operations CBC.ENC and CBC.DEC (45_cbc.md R90 to R92): each performs only block transforms of its own
direction (30_encoding.md R37). -/

namespace Sys2Proof.Machine

/-- `CBC.ENC iv key DIN -> DOUT` (R91). -/
def execCbcEnc (iv : Block) (key : Key) (din : List Byte) (s : State) : Host.Outcome State Fault Refusal :=
  cbcOperation .encrypt iv key din s

/-- `CBC.DEC iv key DIN -> DOUT` (R92). -/
def execCbcDec (iv : Block) (key : Key) (din : List Byte) (s : State) : Host.Outcome State Fault Refusal :=
  cbcOperation .decrypt iv key din s

/-- The pseudo-operation `DES.ENC key=K B`: a CBC.ENC of the one block with `iv = 0` (30_encoding.md R44). It adds nothing to
the core. -/
def desEnc (key : Key) (b : Block) : Instr := .cbcEnc 0 key (unpack b)

/-- The pseudo-operation `DES.DEC key=K B`, likewise (R44). -/
def desDec (key : Key) (b : Block) : Instr := .cbcDec 0 key (unpack b)

end Sys2Proof.Machine
end

