-- ==== Sys2Proof/Machine/Init.lean ====
section
/-! DEFINITION. The operation INIT (40_transposition_engine.md R50 to R52). -/

namespace Sys2Proof.Machine

/-- `INIT`: write all 64 entries of `FINAL`, set the ghost flag, answer completion (R50). -/
def execInit (s : State) : Host.Outcome State Fault Refusal :=
  .next (s.writeFinal.setInitDone.respond .z)

end Sys2Proof.Machine
end

