-- ==== Sys2Proof/Machine/Length.lean ====
section
/-! DEFINITION. The operation LEN (45_cbc.md R87). -/

namespace Sys2Proof.Machine

/-- `LEN n -> m`: it reads no state and needs no INIT (R87, D20); where `LENW` is finite, an `n` whose `n + 7` does not
fit is refused (D11). -/
def execLen (n : Nat) (s : State) : Host.Outcome State Fault Refusal :=
  if lengthTooWide s.lenw n then .refused .lengthTooWide
  else .next (s.respond (.n (lenOf n)))

end Sys2Proof.Machine
end

