-- ==== Sys2Proof/Machine/Dispatch.lean ====
section
/-! DEFINITION. One arm per operation (30_encoding.md R36). -/

namespace Sys2Proof.Machine

def exec (i : Instr) (s : State) : Host.Outcome State Fault Refusal :=
  match i with
  | .init => Sys2Proof.Machine.execInit s
  | .len n => Sys2Proof.Machine.execLen n s
  | .cbcEnc iv key din => Sys2Proof.Machine.execCbcEnc iv key din s
  | .cbcDec iv key din => Sys2Proof.Machine.execCbcDec iv key din s

end Sys2Proof.Machine
end

