-- ==== Sys2Proof/Machine/Step.lean ====
section
/-! DEFINITION. One step: the core takes the next operation the host presents, decodes its record and runs it to its end
(20_memory.md R32). The core has no program counter and fetches no instruction (10_state.md R13); the order is the
host's. With nothing presented the core waits, unchanged (notes/assumptions/5.md). -/

namespace Sys2Proof.Machine

/-- The state in which a presented operation is served: it is taken from what the host presents, and its buffer is the
one in force. -/
def State.take (s : State) (p : Presented) (rest : List Presented) : State :=
  { s with pending := rest, cap := p.cap }

/-- One transition from request to response (R32, 70_reset_and_hazards.md R123). -/
def step (s : State) : Host.Outcome State Fault Refusal :=
  match s.pending with
  | [] => .next s
  | p :: rest =>
    match decode p.command with
    | .ok i => exec i (s.take p rest)
    | .error why => .refused (.malformedCommand why)

/-- The host presents an operation after those it has presented before (R32). -/
def State.present (s : State) (p : Presented) : State :=
  { s with pending := s.pending ++ [p] }

/-- `s` with the record of the command word `w` presented as the very next operation, without a buffer. A word the table
does not have is no command, and nothing is presented. -/
def State.withFetchWord (s : State) (nbits w : Nat) : State :=
  match tableCommand nbits w with
  | none => s
  | some c => { s with pending := { command := c, cap := Config.defaultCap } :: s.pending }

end Sys2Proof.Machine
end

