-- ==== Sys2Proof/Safety.lean ====
section
/-! DEFINITION. What counts as a safe run. INIT establishes that FINAL is the inverse of IP, and every state between
operations keeps it (40_transposition_engine.md R52, 70_reset_and_hazards.md R116). A refused operation leaves the state
as it was and marks the run; a marked run is not a safe one (60_exceptions.md R102, R106). -/

namespace Sys2Proof.Machine

/-- `FINAL[IP[i]] = i` for every `i` in `[0, 63]` (R52). -/
abbrev InverseOfIP (t : Table 64) : Prop := ∀ i : Fin 64, t[IP[i]] = i

/-- The lengths a response may have: what LEN answers and what a CBC operation produces is a multiple of 8 (R87, R90). -/
def Response.wellSized : Response → Bool
  | .z => true
  | .n m => m % 8 == 0
  | .x dout => dout.length % 8 == 0

/-- A length operand of `n` that this core takes: `n + 7` fits in its `LENW` bits (R87, D11). -/
def State.LengthFits (s : State) (n : Nat) : Prop := ∀ w, s.lenw = some w → n + 8 ≤ 2 ^ w

/-- The host's buffer, if it has one, takes `LEN(n)` bytes (R30, R103). -/
def State.BufferFits (s : State) (n : Nat) : Prop := ∀ c, s.cap = some c → lenOf n ≤ c

/-- The states in which a CBC operation on `n` bytes is executed: INIT has run (R102), the length and the buffer fit. In the
default model the last two always do. -/
structure State.ReadyFor (s : State) (n : Nat) : Prop where
  initialised : s.initDone = true
  length_fits : s.LengthFits n
  buffer_fits : s.BufferFits n

/-- What holds in every state between operations: after INIT the final table is the inverse of IP; no operand is held and
no output is under way; every response has a legal length (R10, R19, R52, R90, R116). -/
structure State.Inv (s : State) : Prop where
  final_inverse : s.initDone = true → InverseOfIP s.final
  nothing_held : s.held = none
  no_output_under_way : s.dout = []
  responses_sized : ∀ resp ∈ s.responses, Response.wellSized resp = true

/-- A session: the state, and the refusals met so far, which mark the run (R102). -/
structure Session where
  state : State
  marks : List Refusal
  deriving DecidableEq, Repr

/-- One operation of a session. A refused one changes no state of the core, and the host goes on to its next operation
(R102, R103, R106). -/
def Session.serve (x : Session) : Session :=
  match step x.state with
  | .next s => { state := s, marks := x.marks }
  | .fault _ => x
  | .refused r => { state := { x.state with pending := x.state.pending.tail }, marks := x.marks ++ [r] }

/-- `k` operations of a session. -/
def Session.run : Nat → Session → Session
  | 0, x => x
  | k + 1, x => Session.run k x.serve

/-- The `k` operations presented in `s` are served and none is refused. -/
def SafeRun (k : Nat) (s : State) : Prop := (Session.run k { state := s, marks := [] }).marks = []

end Sys2Proof.Machine
end

