-- ==== Sys2Proof/WellFormed.lean ====
section
/-! DEFINITION. Well-formed operations. The types leave one check to make: a length operand, `n` of LEN or `L` of a
CBC operation, is a natural number of `LENW` bits (30_encoding.md R38, 45_cbc.md R86). In the default model `LENW`
is unbounded (00_scope.md R5) and every operation is well formed (R40). -/

namespace Sys2Proof

/-- `n` is a natural number of `LENW` bits; no bound when `LENW` is unbounded (R38, R87). -/
def fitsLenw (lenw : Option Nat) (n : Nat) : Bool :=
  match lenw with
  | none => true
  | some w => decide (n < 2 ^ w)

/-- The length operands of the operation are `LENW`-bit numbers (R38, R86). -/
def Instr.wellFormed (lenw : Option Nat) : Instr → Bool
  | .init => true
  | .len n => fitsLenw lenw n
  | .cbcEnc _ _ din => fitsLenw lenw din.length
  | .cbcDec _ _ din => fitsLenw lenw din.length

end Sys2Proof
end

