-- ==== Sys2Proof/Certificates/Slice0/Obligations.lean ====
section
/-! DEFINITION. The statements about the model, for the provers. Each docstring names the rule of the spec, or the log entry,
the statement rests on. -/

open Sys2Proof Sys2Proof.Machine

/-! ## Requests, their encoding and the step -/

/-- R32, R38: the operation presented first is taken, with its buffer, and the step is exactly its execution; a record that is
no command is refused by name. That a core with nothing presented waits unchanged is the model's choice
(notes/assumptions/5.md), and that a malformed record is refused under this name is entry 6. -/
def Obligations.StepRunsTheOperationPresentedFirst : Prop :=
  ∀ s : State,
    (s.pending = [] → step s = .next s) ∧
    ∀ p rest, s.pending = p :: rest →
      (∀ i, decode p.command = .ok i → step s = exec i { s with pending := rest, cap := p.cap }) ∧
      (∀ why, decode p.command = .error why → step s = .refused (.malformedCommand why))

/-- R36, R37, R38: the four command words, with every value of their operands. -/
def Obligations.CommandWordsDecode : Prop :=
  decode (.z 0b00#2) = .ok .init ∧
  (∀ n, decode (.n 0b01#2 n) = .ok (.len n)) ∧
  (∀ iv key din, decode (.x 0b10#2 iv key din.length din) = .ok (.cbcEnc iv key din)) ∧
  (∀ iv key din, decode (.x 0b11#2 iv key din.length din) = .ok (.cbcDec iv key din))

/-- R36, R38, R39, R41: a record decodes to an operation exactly when it is that operation's encoding, with every operand at
every value. -/
def Obligations.DecodeAndEncodeAgree : Prop :=
  ∀ (c : Command) (i : Instr), decode c = .ok i ↔ c = encode i

/-- R40: all four `op` codes are allocated; a record is rejected only where its fields are not those its `op` calls for
(R38, R41), or its `L` is not the length of its data (R39). -/
def Obligations.OnlyRecordsThatAreNoCommandAreRejected : Prop :=
  (∀ op : BitVec 2, ∃ i, (encode i).op = op ∧ decode (encode i) = .ok i) ∧
  ∀ c : Command,
    (decode c = .error .formatMismatch ↔ c.format ≠ formatOf c.op) ∧
    (decode c = .error .lengthMismatch ↔
      ∃ op iv key len din, c = .x op iv key len din ∧ formatOf op = .x ∧ len ≠ din.length)

/-! ## Bytes and blocks -/

/-- R25: byte `b_k` occupies bits `[8k+7 : 8k]` and the bits above the bytes given are zero; MemRead is PACK of the bytes at its
offsets. -/
def Obligations.PackIsLittleEndian : Prop :=
  (∀ (bs : List Byte) (j : Nat), bs.length ≤ 8 →
    (pack bs).getLsbD j = (if h : j / 8 < bs.length then bs[j / 8].getLsbD (j % 8) else false)) ∧
  ∀ (din : List Byte) (addr n j : Nat), n ≤ 8 → addr + n ≤ din.length →
    (memRead din addr n).getLsbD j =
      (if h : j / 8 < n ∧ addr + j / 8 < din.length then din[addr + j / 8].getLsbD (j % 8) else false)

/-- R26: UNPACK emits 8 bytes, lowest offset first, and PACK inverts it; MemWrite places the 8 bytes at its offsets and leaves every
other byte of DOUT; at the end of DOUT, where the core writes, it adds 8 bytes. -/
def Obligations.UnpackInvertsPack : Prop :=
  (∀ v : Block, unpack v = [v.extractLsb' 0 8, v.extractLsb' 8 8, v.extractLsb' 16 8, v.extractLsb' 24 8,
      v.extractLsb' 32 8, v.extractLsb' 40 8, v.extractLsb' 48 8, v.extractLsb' 56 8] ∧ pack (unpack v) = v) ∧
  (∀ bs : List Byte, bs.length = 8 → unpack (pack bs) = bs) ∧
  (∀ (dout : List Byte) (v : Block), (memWrite dout dout.length v).length = dout.length + 8) ∧
  ∀ (dout : List Byte) (addr : Nat) (v : Block), addr ≤ dout.length →
    memRead (memWrite dout addr v) addr 8 = v ∧
    ∀ a, a < addr ∨ addr + 8 ≤ a → (memWrite dout addr v)[a]? = dout[a]?

/-! ## The transposition engine and its tables -/

/-- R45, R46: GETBIT reads bit `i`; SETBIT replaces it and leaves every other bit. -/
def Obligations.BitPrimitives : Prop :=
  (∀ v i, (getBit v i).toNat = v.toNat / 2 ^ i.val % 2) ∧
  (∀ v i b, getBit (setBit v i b) i = b ∧ ∀ j, j ≠ i → getBit (setBit v i b) j = getBit v j) ∧
  (∀ v i, setBit v i (getBit v i) = v) ∧
  getBit 0x8000000000000000 63 = 1 ∧ getBit 0x8000000000000000 62 = 0 ∧
  setBit 0 63 1 = 0x8000000000000000 ∧ setBit 0xFFFFFFFFFFFFFFFF 0 0 = 0xFFFFFFFFFFFFFFFE

/-- R47: bit `i` of the result is the input bit that entry `i` of the table names, for a table of any length up to 64, and the bits at and
above its length are zero; with the two examples of the rule. -/
def Obligations.TransposeBitByBit : Prop :=
  (∀ (n : Nat) (h : n ≤ 64) (t : Table n) (v : Block),
    (∀ j : Fin n, getBit (transpose v t h) (Fin.castLE h j) = getBit v t[j]) ∧
    (transpose v t h).toNat < 2 ^ n) ∧
  transpose 0x0000000000000001 IP = 0x0000008000000000 ∧
  transpose 0x8000001 ROT1 = 0x0000003

/-- R48 (a) to (e), with the examples of (a) and (d). -/
def Obligations.TranspositionLaws : Prop :=
  (∀ (n : Nat) (h : n ≤ 64) (t : Table n),
    (∀ v i b, (∀ j : Fin n, t[j] ≠ i) → transpose (setBit v i b) t h = transpose v t h) ∧
    (∀ v (j k : Fin n), t[j] = t[k] →
      getBit (transpose v t h) (Fin.castLE h j) = getBit (transpose v t h) (Fin.castLE h k)) ∧
    (∀ a b, transpose (a ^^^ b) t h = transpose a t h ^^^ transpose b t h) ∧
    transpose 0 t h = 0 ∧
    (∀ v (i : BitIndex), n ≤ i.val → getBit (transpose v t h) i = 0)) ∧
  (∀ t u : Table 64, (∀ i : Fin 64, u[t[i]] = i) → ∀ v, transpose (transpose v t) u = v) ∧
  transpose 0xFFFFFFFFF0000001 ROT1 = 0x0000002 ∧
  transpose (transpose 0xDEADBEEF01234567 IP) finalAfterInit = 0xDEADBEEF01234567

/-- R53 to R57, R60, R61, R64: every transposition table is the published one, re-indexed by the natural map, or by the grouped
map where the destination is a 48-bit quantity. -/
def Obligations.TablesAreTheReindexedOriginals : Prop :=
  (∀ j : Fin 64, (IP.toList[natMap 64 (j + 1)]?).map Fin.val = some (natMap 64 fipsIP[j])) ∧
  (∀ j : Fin 64, (finalAfterInit.toList[natMap 64 (j + 1)]?).map Fin.val = some (natMap 64 fipsFP[j])) ∧
  (∀ j : Fin 48, (E.toList[grpMap (j + 1)]?).map Fin.val = some (natMap 32 fipsE[j])) ∧
  (∀ j : Fin 32, (P.toList[natMap 32 (j + 1)]?).map Fin.val = some (natMap 32 fipsP[j])) ∧
  (∀ j : Fin 28, (PC1L.toList[natMap 28 (j + 1)]?).map Fin.val = some (natMap 64 fipsPC1[j.val])) ∧
  (∀ j : Fin 28, (PC1R.toList[natMap 28 (j + 1)]?).map Fin.val = some (natMap 64 fipsPC1[28 + j.val])) ∧
  (∀ j : Fin 48, (PC2.toList[grpMap (j + 1)]?).map Fin.val = some (natMap 56 fipsPC2[j]))

/-- R49, with R54, R57, R60, R61: every entry indexes inside the source width the table is used with; IP and P are
permutations; PC1L and PC1R name 56 distinct key bits and no parity position; PC2 names 48 distinct bits. -/
def Obligations.TableEntriesAreValid : Prop :=
  (∀ j : Fin 48, E[j].val < 32 ∧ PC2[j].val < 56) ∧ (∀ j : Fin 32, P[j].val < 32) ∧
  (∀ j : Fin 28, ROT1[j].val < 28 ∧ ROT2[j].val < 28) ∧
  IP.toList.Nodup ∧ P.toList.Nodup ∧ (PC1L.toList ++ PC1R.toList).Nodup ∧ PC2.toList.Nodup ∧
  (∀ j : Fin 28, PC1L[j].val % 8 ≠ 0 ∧ PC1R[j].val % 8 ≠ 0)

/-- R62, R63, R73: the shift counts, 28 in all; a round of the schedule rotates a half left by its count; ROT1 applied twice is ROT2. -/
def Obligations.RotationTablesRotateLeft : Prop :=
  (∀ r : Fin 16, SHIFT[r] = if r.val = 0 ∨ r.val = 1 ∨ r.val = 8 ∨ r.val = 15 then 1 else 2) ∧
  SHIFT.toList.sum = 28 ∧
  (∀ i : Fin 28, ROT1[i].val = (i.val + 27) % 28 ∧ ROT2[i].val = (i.val + 26) % 28) ∧
  (∀ (h : HalfKey) (r : Fin 16), rotateHalf h r = h.rotateLeft SHIFT[r]) ∧
  (∀ h : HalfKey, transpose (transpose (h.setWidth 64) ROT1) ROT1 = transpose (h.setWidth 64) ROT2)

/-! ## INIT -/

/-- R50, R55: INIT completes from every state, whatever FINAL held: FINAL holds the listed values, the ghost flag is 1,
completion is answered, and nothing else changes. -/
def Obligations.InitWritesFinalAndFlag : Prop :=
  ∀ s : State, exec .init s =
    .next { s with final := finalAfterInit, initDone := true, responses := s.responses ++ [.z] }

/-- R51: after the first INIT another one, now or later, only answers completion: FINAL is written with the values it holds. -/
def Obligations.InitAgainChangesNothing : Prop :=
  (∀ s t : State, exec .init s = .next t → exec .init t = .next { t with responses := t.responses ++ [.z] }) ∧
  (∀ s : State, s.initDone = true → InverseOfIP s.final →
    exec .init s = .next { s with responses := s.responses ++ [.z] })

/-- R52: after INIT, FINAL is the exact inverse of IP; what the rule concludes from that, for any such table; and there is only one,
so that nothing can depend on anything else about FINAL. -/
def Obligations.InitMakesFinalTheInverse : Prop :=
  (∀ s t : State, exec .init s = .next t → ∀ i : Fin 64, t.final[IP[i]] = i) ∧
  ∀ t : Table 64, (∀ i : Fin 64, t[IP[i]] = i) →
    (∀ j : Fin 64, IP[t[j]] = j) ∧ t.toList.Nodup ∧
    (∀ v, transpose (transpose v IP) t = v ∧ transpose (transpose v t) IP = v) ∧
    ∀ u : Table 64, (∀ i : Fin 64, u[IP[i]] = i) → u = t

/-! ## The round function -/

/-- R59, R65: the row is bits 5 and 0, the column bits 4 to 1, and the lookup is the flattened table's. -/
def Obligations.SubstitutionLookup : Prop :=
  (∀ (i : Fin 8) (row : Fin 4) (col : Fin 16),
    sbox i (BitVec.ofNat 6 (32 * (row.val / 2) + 2 * col.val + row.val % 2)) = S[i][row][col]) ∧
  ∀ (i : Fin 8) (g : Fin 64), sbox i (BitVec.ofFin g) = SFLAT[i][g]

/-- R66: bit by bit, the expansion by E, the eight substitutions with group 0 in the most significant place, and the permutation
by P. -/
def Obligations.RoundFunctionBitByBit : Prop :=
  (∀ (right : Half) (j : Fin 48), (expand right).getLsbD j = right.getLsbD E[j].val) ∧
  (∀ (x : Subkey) (i : Fin 8), (substitute x).extractLsb' (4 * (7 - i.val)) 4 = sbox i (x.extractLsb' (6 * i.val) 6)) ∧
  (∀ (right : Half) (k : Subkey) (j : Fin 32),
    (roundF right k).getLsbD j = (substitute (expand right ^^^ k)).getLsbD P[j].val)

/-- R68 (a), (b), (c), (f): the worked values, and that the operands count only through their expansion's XOR. -/
def Obligations.RoundFunctionLaws : Prop :=
  roundF 0 0 = 0xD8D8DBBC ∧ roundF 0xFFFFFFFF 0xFFFFFFFFFFFF = 0xD8D8DBBC ∧
  roundF 0xFFFFFFFF 0 = 0x38DBF9CB ∧ roundF 0 0xFFFFFFFFFFFF = 0x38DBF9CB ∧
  roundF 0x12345678 0xABCDEF012345 = 0x5335F140 ∧
  (∀ r r' k k', expand r ^^^ k = expand r' ^^^ k' → roundF r k = roundF r' k') ∧
  (∀ r k, roundF (~~~r) (~~~k) = roundF r k)

/-! ## The key schedule -/

/-- R72, R74: bit by bit, the halves that step PC-1 selects from the key, and the subkey that step PC-2 selects from `C ++ D`, `C` in
bits `[55:28]`. -/
def Obligations.KeySelectionBitByBit : Prop :=
  (∀ (key : Key) (j : Fin 28), (pc1Left key).getLsbD j = key.getLsbD PC1L[j].val ∧
    (pc1Right key).getLsbD j = key.getLsbD PC1R[j].val) ∧
  ∀ (c d : HalfKey) (j : Fin 48), (pc2 c d).getLsbD j = (c ++ d).getLsbD PC2[j].val

/-- R72 to R75: whatever the registers held, SUBKEY[r] is step PC-2 of the two step PC-1 halves rotated left by the shifts of rounds
0 to r in all. -/
def Obligations.SubkeysByCumulativeRotation : Prop :=
  ∀ (old : Vector Subkey 16) (key : Key) (r : Fin 16),
    (keySchedule old key).subkey[r] =
      pc2 ((pc1Left key).rotateLeft (SHIFT.toList.take (r.val + 1)).sum)
        ((pc1Right key).rotateLeft (SHIFT.toList.take (r.val + 1)).sum)

/-- R77 (a) to (d). -/
def Obligations.KeyScheduleLaws : Prop :=
  SHIFT.toList.sum = 28 ∧
  (∀ old key, (keySchedule old key).c = pc1Left key ∧ (keySchedule old key).d = pc1Right key ∧
    (keySchedule old key).subkey[15] = pc2 (pc1Left key) (pc1Right key)) ∧
  (∀ old key, (keySchedule old key).subkey = subkeysOf key) ∧
  (∀ key (r : Fin 16), (subkeysOf (~~~key))[r] = ~~~(subkeysOf key)[r]) ∧
  (∀ c c' d d', (pc2 c d).extractLsb' 0 24 = (pc2 c d').extractLsb' 0 24 ∧
    (pc2 c d).extractLsb' 24 24 = (pc2 c' d).extractLsb' 24 24)

/-- R76: two keys that differ in parity positions only give the same subkeys and so the same results everywhere; the four keys it
names give equal subkeys, and the first two of them one transform for both directions. -/
def Obligations.ParityPositionsAreIgnored : Prop :=
  (∀ key m : Key, m &&& 0xFEFEFEFEFEFEFEFE = 0 →
    subkeysOf (key ^^^ m) = subkeysOf key ∧
    ∀ t dir iv din, cbcOutput t dir iv (key ^^^ m) din = cbcOutput t dir iv key din) ∧
  (∀ r : Fin 16, (subkeysOf 0)[r] = 0 ∧ (subkeysOf 0x0101010101010101)[r] = 0 ∧
    (subkeysOf 0xFFFFFFFFFFFFFFFF)[r] = 0xFFFFFFFFFFFF ∧ (subkeysOf 0xFEFEFEFEFEFEFEFE)[r] = 0xFFFFFFFFFFFF) ∧
  (∀ t b, desBlock t b 0 .encrypt = desBlock t b 0 .decrypt ∧
    desBlock t b 0x0101010101010101 .encrypt = desBlock t b 0x0101010101010101 .decrypt)

/-! ## The single-block transform -/

/-- R78, R79, R81, R82: the steps of the block transform, bit by bit: the initial permutation and the split, left half high; rounds that
read the old halves, with the subkeys in forward order to encrypt and in reverse order to decrypt; the merge with the swap and the
final table. -/
def Obligations.BlockTransformStepByStep : Prop :=
  (∀ (b : Block) (j : Fin 32), (loadHalves b).l.getLsbD j = b.getLsbD IP[32 + j.val].val ∧
    (loadHalves b).r.getLsbD j = b.getLsbD IP[j.val].val) ∧
  (∀ (k : Subkey) (h : Halves), feistelRound k h = { l := h.r, r := h.l ^^^ roundF h.r k }) ∧
  (∀ (sk : Vector Subkey 16) (h : Halves),
    feistel sk .encrypt h = sk.toList.foldl (fun h k => feistelRound k h) h ∧
    feistel sk .decrypt h = sk.toList.reverse.foldl (fun h k => feistelRound k h) h) ∧
  (∀ (t : Table 64) (h : Halves) (j : Fin 64), (mergeHalves t h).getLsbD j = (h.r ++ h.l).getLsbD t[j].val) ∧
  ∀ (t : Table 64) (b : Block) (key : Key) (dir : Direction),
    desBlock t b key dir = mergeHalves t (feistel (subkeysOf key) dir (loadHalves b))

/-- R84: given only that FINAL is the inverse of IP, decrypting inverts encrypting and encrypting inverts decrypting, so each is a
bijection on blocks. -/
def Obligations.BlockTransformInverts : Prop :=
  ∀ t : Table 64, InverseOfIP t → ∀ key : Key,
    (∀ b, desBlock t (desBlock t b key .encrypt) key .decrypt = b) ∧
    (∀ b, desBlock t (desBlock t b key .decrypt) key .encrypt = b) ∧
    Function.Bijective (fun b => desBlock t b key .encrypt) ∧ Function.Bijective (fun b => desBlock t b key .decrypt)

/-- R85 (c): complementing block and key complements the result, whatever FINAL holds. -/
def Obligations.BlockTransformComplements : Prop :=
  ∀ (t : Table 64) (b : Block) (key : Key) (dir : Direction),
    desBlock t (~~~b) (~~~key) dir = ~~~desBlock t b key dir

/-- R85 (d): with a key whose sixteen subkeys are equal, the two directions are one function, and it is its own inverse. -/
def Obligations.EqualSubkeysMakeSelfInverse : Prop :=
  ∀ (t : Table 64) (key : Key), InverseOfIP t → (∀ r : Fin 16, (subkeysOf key)[r] = (subkeysOf key)[0]) →
    ∀ b, desBlock t b key .encrypt = desBlock t b key .decrypt ∧
      desBlock t (desBlock t b key .encrypt) key .encrypt = b

/-- The one known answer of the spec's source, vector S7 (95_test_vectors.md), both ways, under the FINAL that INIT leaves. -/
def Obligations.KnownAnswer : Prop :=
  desBlock finalAfterInit 0x0123456789ABCDEF 0x133457799BBCDFF1 .encrypt = 0x85E813540F0AB405 ∧
  desBlock finalAfterInit 0x85E813540F0AB405 0x133457799BBCDFF1 .decrypt = 0x0123456789ABCDEF

/-! ## LEN -/

/-- R87: LEN answers the next multiple of 8 in every state, INIT or not, and changes nothing else; the laws and values the rule
gives; and with a finite LENW an `n` above `2^LENW - 8` is refused. -/
def Obligations.LenRoundsUp : Prop :=
  (∀ (n : Nat) (s : State), s.LengthFits n →
    exec (.len n) s = .next { s with responses := s.responses ++ [.n (n + (8 - n % 8) % 8)] }) ∧
  (∀ (n w : Nat) (s : State), s.lenw = some w → 2 ^ w < n + 8 → exec (.len n) s = .refused .lengthTooWide) ∧
  (∀ n, lenOf n = n + (8 - n % 8) % 8 ∧ lenOf n = (n + 7) / 8 * 8 ∧ n ≤ lenOf n ∧ lenOf n ≤ n + 7 ∧
    lenOf n % 8 = 0 ∧ lenOf (lenOf n) = lenOf n) ∧
  lenOf 0 = 0 ∧ lenOf 1 = 8 ∧ lenOf 7 = 8 ∧ lenOf 8 = 8 ∧ lenOf 9 = 16 ∧ lenOf 13 = 16 ∧ lenOf 15 = 16 ∧ lenOf 16 = 16

/-! ## CBC.ENC and CBC.DEC -/

/-- R90, R91: CBC.ENC completes after INIT whenever the length and the buffer fit: the response is the chained output of its
operands and FINAL, no operand survives, and the persistent state is unchanged. That the working registers then hold free values
is the model's way to leave them unspecified (notes/assumptions/2.md). -/
def Obligations.CbcEncCompletes : Prop :=
  ∀ (iv : Block) (key : Key) (din : List Byte) (s : State), s.ReadyFor din.length →
    exec (.cbcEnc iv key din) s = .next { s.releaseRegisters with
      held := none, dout := [], responses := s.responses ++ [.x (cbcOutput s.final .encrypt iv key din)] }

/-- R90, R92: CBC.DEC, likewise (notes/assumptions/2.md for the working registers). -/
def Obligations.CbcDecCompletes : Prop :=
  ∀ (iv : Block) (key : Key) (din : List Byte) (s : State), s.ReadyFor din.length →
    exec (.cbcDec iv key din) s = .next { s.releaseRegisters with
      held := none, dout := [], responses := s.responses ++ [.x (cbcOutput s.final .decrypt iv key din)] }

/-- R93: the block steps of a running operation, of any number: the block counter counts them, DOUT grows by 8 bytes each, the
operands are held, nothing persistent changes; after all `NB` of them DOUT is the operation's result. -/
def Obligations.BlockStepsReachTheResult : Prop :=
  ∀ (dir : Direction) (iv : Block) (key : Key) (din : List Byte) (s : State) (k : Nat),
    let t := State.runBlocks k (s.beginCbc dir iv key din)
    t.blockIx = k ∧ t.dout.length = 8 * k ∧ t.held = some { dir := dir, iv := iv, key := key, din := din } ∧
    t.final = s.final ∧ t.initDone = s.initDone ∧
    (k = numBlocks din.length → t.dout = cbcOutput s.final dir iv key din)

/-- R91: the operation's record, the block step of CBC.ENC, and the outputs unrolled. -/
def Obligations.EncryptChaining : Prop :=
  (∀ iv key din, encode (.cbcEnc iv key din) = .x 0b10#2 iv key din.length din) ∧
  (∀ (s : State) (h : Held), s.held = some h → h.dir = .encrypt →
    let o := desBlock s.final (blockAt h.din s.blockIx) h.key .encrypt ^^^ s.chain
    s.blockStep.chain = o ∧ s.blockStep.dout = memWrite s.dout (8 * s.blockIx) o) ∧
  ∀ (t : Table 64) (key : Key) (iv : Block) (ps : List Block),
    let cs := cbcBlocks t .encrypt key iv ps
    cs.length = ps.length ∧
    (∀ p, ps[0]? = some p → cs[0]? = some (desBlock t p key .encrypt ^^^ iv)) ∧
    (∀ (n : Nat) p c, ps[n + 1]? = some p → cs[n]? = some c → cs[n + 1]? = some (desBlock t p key .encrypt ^^^ c)) ∧
    (∀ n, n < ps.length → cs[n]? = some ((ps.take (n + 1)).foldl (fun a p => a ^^^ desBlock t p key .encrypt) iv))

/-- R92: the operation's record, the block step of CBC.DEC, whose new chaining value is the input block, and the outputs unrolled. -/
def Obligations.DecryptChaining : Prop :=
  (∀ iv key din, encode (.cbcDec iv key din) = .x 0b11#2 iv key din.length din) ∧
  (∀ (s : State) (h : Held), s.held = some h → h.dir = .decrypt →
    let b := blockAt h.din s.blockIx
    s.blockStep.chain = b ∧
    s.blockStep.dout = memWrite s.dout (8 * s.blockIx) (desBlock s.final (b ^^^ s.chain) h.key .decrypt)) ∧
  ∀ (t : Table 64) (key : Key) (iv : Block) (cs : List Block),
    let ps := cbcBlocks t .decrypt key iv cs
    ps.length = cs.length ∧
    (∀ c, cs[0]? = some c → ps[0]? = some (desBlock t (c ^^^ iv) key .decrypt)) ∧
    (∀ (n : Nat) c c', cs[n]? = some c → cs[n + 1]? = some c' → ps[n + 1]? = some (desBlock t (c' ^^^ c) key .decrypt))

/-- R88, R89: block `n` of DIN, full or partial, holds byte `8n+k` in bits `[8k+7 : 8k]` and zeros where there is no byte; there are
`NB` of them, none for the empty input. -/
def Obligations.InputIsCutIntoBlocks : Prop :=
  (∀ (din : List Byte) (n k j : Nat), n < numBlocks din.length → k < 8 → j < 8 →
    (blockAt din n).getLsbD (8 * k + j) = ((din[8 * n + k]?).getD 0).getLsbD j) ∧
  (∀ len, numBlocks len = if len % 8 = 0 then len / 8 else len / 8 + 1) ∧ numBlocks 0 = 0

/-- R89, R101: the padding is zeros and is not marked: an input and the same input zero-padded to the next multiple of 8 bytes give the
same output, in both directions. -/
def Obligations.PaddingIsNotMarked : Prop :=
  ∀ (t : Table 64) (dir : Direction) (iv : Block) (key : Key) (din : List Byte),
    cbcOutput t dir iv key (zeroPad din) = cbcOutput t dir iv key din

/-- R26, R90: the output has `LEN(L)` bytes, a multiple of 8, and its blocks are the chained blocks. -/
def Obligations.OutputHasLenBytes : Prop :=
  ∀ (t : Table 64) (dir : Direction) (iv : Block) (key : Key) (din : List Byte),
    (cbcOutput t dir iv key din).length = lenOf din.length ∧
    inputBlocks (cbcOutput t dir iv key din) = cbcBlocks t dir key iv (inputBlocks din)

/-- R44, R94: one block with `iv = 0` is the raw block transform, in both directions, and one block with any `iv`. -/
def Obligations.OneBlockIsTheRawTransform : Prop :=
  ∀ (iv : Block) (key : Key) (b : Block) (s : State), s.ReadyFor 8 →
    (∃ t, exec (desEnc key b) s = .next t ∧
      t.responses = s.responses ++ [.x (unpack (desBlock s.final b key .encrypt))]) ∧
    (∃ t, exec (desDec key b) s = .next t ∧
      t.responses = s.responses ++ [.x (unpack (desBlock s.final b key .decrypt))]) ∧
    (∃ t, exec (.cbcEnc iv key (unpack b)) s = .next t ∧
      t.responses = s.responses ++ [.x (unpack (desBlock s.final b key .encrypt ^^^ iv))]) ∧
    (∃ t, exec (.cbcDec iv key (unpack b)) s = .next t ∧
      t.responses = s.responses ++ [.x (unpack (desBlock s.final (b ^^^ iv) key .decrypt))])

/-- R95: after INIT, decrypting what was encrypted, under the same `iv` and key, answers the input followed by zeros up to the next
multiple of 8 bytes. -/
def Obligations.RoundTripGivesThePaddedInput : Prop :=
  ∀ (iv : Block) (key : Key) (din : List Byte) (s : State),
    s.ReadyFor din.length → s.LengthFits (lenOf din.length) → InverseOfIP s.final →
    ∃ s1 out s2, exec (.cbcEnc iv key din) s = .next s1 ∧ s1.responses = s.responses ++ [.x out] ∧
      exec (.cbcDec iv key out) s1 = .next s2 ∧ s2.responses = s1.responses ++ [.x (zeroPad din)]

/-- R95: the other order, for inputs whose length is a multiple of 8. -/
def Obligations.RoundTripInTheOtherOrder : Prop :=
  ∀ (iv : Block) (key : Key) (din : List Byte) (s : State),
    s.ReadyFor din.length → din.length % 8 = 0 → InverseOfIP s.final →
    ∃ s1 out s2, exec (.cbcDec iv key din) s = .next s1 ∧ s1.responses = s.responses ++ [.x out] ∧
      exec (.cbcEnc iv key out) s1 = .next s2 ∧ s2.responses = s1.responses ++ [.x din]

/-- R95, R120: a message cut at a block boundary gives the output of one operation, if the second operation's `iv` is the last 8
output bytes of the first (encrypt), or its last 8 input bytes (decrypt), packed. -/
def Obligations.ChainContinuesOverTwoOperations : Prop :=
  ∀ (t : Table 64) (iv : Block) (key : Key) (x1 x2 : List Byte), x1 ≠ [] → x1.length % 8 = 0 →
    (let o1 := cbcOutput t .encrypt iv key x1
     cbcOutput t .encrypt iv key (x1 ++ x2) =
       o1 ++ cbcOutput t .encrypt (pack (o1.drop (o1.length - 8))) key x2) ∧
    cbcOutput t .decrypt iv key (x1 ++ x2) =
      cbcOutput t .decrypt iv key x1 ++ cbcOutput t .decrypt (pack (x1.drop (x1.length - 8))) key x2

/-- R96 (a): under CBC.ENC, changing input block `N` alone leaves the output blocks before `N` and changes block `N` and every later one
by one and the same nonzero difference. -/
def Obligations.EncryptDifferenceIsCarriedAlong : Prop :=
  ∀ (t : Table 64) (key : Key) (iv : Block) (ps qs : List Block) (b b' : Block), InverseOfIP t → b ≠ b' →
    let cs := cbcBlocks t .encrypt key iv (ps ++ b :: qs)
    let cs' := cbcBlocks t .encrypt key iv (ps ++ b' :: qs)
    let d := desBlock t b key .encrypt ^^^ desBlock t b' key .encrypt
    d ≠ 0 ∧ (∀ n, n < ps.length → cs'[n]? = cs[n]?) ∧
    (∀ n c, ps.length ≤ n → cs[n]? = some c → cs'[n]? = some (c ^^^ d))

/-- R96 (b): under CBC.DEC, changing input block `N` alone changes output blocks `N` and `N+1` and no other. -/
def Obligations.DecryptDifferenceStopsAfterOneBlock : Prop :=
  ∀ (t : Table 64) (key : Key) (iv : Block) (cs qs : List Block) (b b' : Block), InverseOfIP t → b ≠ b' →
    let ps := cbcBlocks t .decrypt key iv (cs ++ b :: qs)
    let ps' := cbcBlocks t .decrypt key iv (cs ++ b' :: qs)
    ∀ n, n < ps.length → (ps'[n]? ≠ ps[n]? ↔ n = cs.length ∨ n = cs.length + 1)

/-- R96 (c): changing `iv` changes every output block by the same difference under CBC.ENC, and output block 0 only under
CBC.DEC. -/
def Obligations.IvDifference : Prop :=
  ∀ (t : Table 64) (key : Key) (iv iv' : Block) (bs : List Block), InverseOfIP t → iv ≠ iv' →
    (∀ (n : Nat) c, (cbcBlocks t .encrypt key iv bs)[n]? = some c →
      (cbcBlocks t .encrypt key iv' bs)[n]? = some (c ^^^ (iv ^^^ iv'))) ∧
    (∀ n, n < bs.length →
      ((cbcBlocks t .decrypt key iv' bs)[n]? ≠ (cbcBlocks t .decrypt key iv bs)[n]? ↔ n = 0))

/-! ## Refusals -/

/-- R102, R105, R106: a CBC operation is refused for use before INIT exactly when the ghost flag is 0, at every length, 0 included, and
before any other check; the refusal leaves every field of the core as it was, gives no response, and marks the session. -/
def Obligations.CbcBeforeInitIsRefused : Prop :=
  ∀ (iv : Block) (key : Key) (din : List Byte) (s : State),
    (exec (.cbcEnc iv key din) s = .refused .useBeforeInit ↔ s.initDone = false) ∧
    (exec (.cbcDec iv key din) s = .refused .useBeforeInit ↔ s.initDone = false) ∧
    ∀ p rest marks, s.pending = p :: rest → s.initDone = false →
      (decode p.command = .ok (.cbcEnc iv key din) ∨ decode p.command = .ok (.cbcDec iv key din)) →
      Session.serve { state := s, marks := marks } =
        { state := { s with pending := rest }, marks := marks ++ [.useBeforeInit] }

/-- R103, R105, R106: a CBC operation is refused for its buffer exactly when INIT has run, the length fits, and the buffer holds fewer than
`LEN(L)` bytes; the operation presented with such a buffer leaves every field of the core as it was, gives no response, and marks
the session. That the width check of a finite LENW comes before the buffer's is
the model's choice (notes/assumptions/7.md). -/
def Obligations.ShortBufferIsRefused : Prop :=
  ∀ (iv : Block) (key : Key) (din : List Byte) (s : State),
    let short := s.initDone = true ∧ s.LengthFits din.length ∧ ∃ c, s.cap = some c ∧ c < lenOf din.length
    (exec (.cbcEnc iv key din) s = .refused .outputBufferTooSmall ↔ short) ∧
    (exec (.cbcDec iv key din) s = .refused .outputBufferTooSmall ↔ short) ∧
    ∀ p rest marks c, s.pending = p :: rest → s.initDone = true → s.LengthFits din.length → p.cap = some c →
      c < lenOf din.length →
      (decode p.command = .ok (.cbcEnc iv key din) ∨ decode p.command = .ok (.cbcDec iv key din)) →
      Session.serve { state := s, marks := marks } =
        { state := { s with pending := rest }, marks := marks ++ [.outputBufferTooSmall] }

/-- R87 and 92_eei_decisions.md D11: with a finite LENW a CBC operation whose length is above `2^LENW - 8` is refused, once INIT has run (the
order of the checks is the model's choice, notes/assumptions/7.md); an operation whose length operand has more than LENW bits is
refused in any case; with an unbounded LENW no operation is. -/
def Obligations.WideLengthIsRefused : Prop :=
  ∀ (iv : Block) (key : Key) (din : List Byte) (s : State),
    (exec (.cbcEnc iv key din) s = .refused .lengthTooWide ↔ s.initDone = true ∧ ¬ s.LengthFits din.length) ∧
    (exec (.cbcDec iv key din) s = .refused .lengthTooWide ↔ s.initDone = true ∧ ¬ s.LengthFits din.length) ∧
    (∀ i : Instr, i.wellFormed s.lenw = false → ∃ r, exec i s = .refused r) ∧
    (s.lenw = none → ∀ i, i.wellFormed s.lenw = true ∧ exec i s ≠ .refused .lengthTooWide)

/-- R100: there is no fault, and in the default model (no bound on a length, no buffer) INIT and LEN in every state, and CBC.ENC and
CBC.DEC in every state after INIT, answer a next state and one response; a response carries the result and nothing else. -/
def Obligations.EveryOperationAnswers : Prop :=
  (∀ _ : Fault, False) ∧
  ∀ s : State, s.lenw = none → s.cap = none →
    (∃ t, exec .init s = .next t ∧ t.responses = s.responses ++ [.z]) ∧
    (∀ n, ∃ t, exec (.len n) s = .next t ∧ t.responses = s.responses ++ [.n (lenOf n)]) ∧
    (s.initDone = true → ∀ iv key din,
      (∃ t, exec (.cbcEnc iv key din) s = .next t ∧
        t.responses = s.responses ++ [.x (cbcOutput s.final .encrypt iv key din)]) ∧
      (∃ t, exec (.cbcDec iv key din) s = .next t ∧
        t.responses = s.responses ++ [.x (cbcOutput s.final .decrypt iv key din)]))

/-! ## The life of the state -/

/-- R21, R113: what the spec gives of the state after reset: the ghost flag is 0, no operand is held, nothing has been produced; and the
operations that may come first (R115): LEN and INIT are answered, a CBC operation is refused. -/
def Obligations.ResetState : Prop :=
  State.reset.initDone = false ∧ State.reset.held = none ∧ State.reset.responses = [] ∧ State.reset.dout = [] ∧
  (∃ t, exec .init State.reset = .next t) ∧ (∀ n, ∃ t, exec (.len n) State.reset = .next t) ∧
  (∀ iv key din, exec (.cbcEnc iv key din) State.reset = .refused .useBeforeInit ∧
    exec (.cbcDec iv key din) State.reset = .refused .useBeforeInit)

/-- The invariant of the states between operations holds after reset (R21, R113). -/
def Obligations.ResetMeetsTheInvariant : Prop := State.reset.Inv

/-- R10, R19, R52, R87, R90, R116: from every state that meets the invariant, a step gives a state that meets it: after INIT FINAL stays the
inverse of IP, no operand and no output survives an operation, and every response has a legal length. -/
def Obligations.StepKeepsTheInvariant : Prop :=
  ∀ s t : State, s.Inv → step s = .next t → t.Inv

/-- R16, R113: the ghost flag is 0 at reset, INIT sets it to 1, no other operation writes it, and nothing clears it; while it is 0 a
CBC operation is refused (R102). -/
def Obligations.InitDoneIsNeverCleared : Prop :=
  State.reset.initDone = false ∧
  (∀ s t : State, exec .init s = .next t → t.initDone = true) ∧
  (∀ s t : State, step s = .next t → s.initDone = true → t.initDone = true) ∧
  (∀ (i : Instr) (s t : State), exec i s = .next t → i ≠ .init → t.initDone = s.initDone) ∧
  (∀ (iv : Block) (key : Key) (din : List Byte) (s : State), s.initDone = false →
    exec (.cbcEnc iv key din) s = .refused .useBeforeInit ∧ exec (.cbcDec iv key din) s = .refused .useBeforeInit)

/-- R15, R116: only INIT writes FINAL; once INIT has run, FINAL never changes again, whatever is presented. -/
def Obligations.FinalIsWrittenOnce : Prop :=
  (∀ (i : Instr) (s t : State), exec i s = .next t → i ≠ .init → t.final = s.final) ∧
  (∀ s t : State, s.Inv → s.initDone = true → step s = .next t → t.final = s.final) ∧
  (∀ (k : Nat) (x : Session), x.state.Inv → x.state.initDone = true →
    (Session.run k x).state.final = x.state.final)

/-- R22, R116: the response of an operation after INIT is a function of its operands alone: two states that share nothing but that INIT has
run (and LENW and the buffer) give the same response, whatever earlier operations left in any register. -/
def Obligations.ResponseIsAFunctionOfTheOperands : Prop :=
  ∀ (i : Instr) (s t s' : State), InverseOfIP s.final → InverseOfIP t.final → s.initDone = true → t.initDone = true →
    s.lenw = t.lenw → s.cap = t.cap → exec i s = .next s' →
    ∃ t' r, exec i t = .next t' ∧ s'.responses = s.responses ++ [r] ∧ t'.responses = t.responses ++ [r]

/-- R22, R102: what an operation answers does not depend on what any working register holds, nor, before INIT, on what FINAL holds: the
transaction-local registers, the free values and an unspecified FINAL cannot be observed. -/
def Obligations.WorkingRegistersCannotBeObserved : Prop :=
  ∀ (i : Instr) (s t s' : State), s.initDone = t.initDone → (s.initDone = true → s.final = t.final) →
    s.lenw = t.lenw → s.cap = t.cap → exec i s = .next s' →
    ∃ t' r, exec i t = .next t' ∧ s'.responses = s.responses ++ [r] ∧ t'.responses = t.responses ++ [r]
end

