-- ==== Sys2Proof/Laws/Engine.lean ====
section
/-! SUPPORT. What the transposition engine does, bit by bit: the lemmas the other proofs cite instead of unfolding it. -/

namespace Sys2Proof.Machine

theorem getBit_getLsbD (v : Block) (i : BitIndex) : (getBit v i).getLsbD 0 = v.getLsbD i.val := by
  simp [getBit]

theorem setBit_getLsbD (v : Block) (i : BitIndex) (b : BitVec 1) (j : Nat) :
    (setBit v i b).getLsbD j = if j = i.val then b.getLsbD 0 else v.getLsbD j := by
  have hi := i.isLt
  by_cases hj : j < 64
  · rcases lt_trichotomy j i.val with h | h | h
    · have h1 : ¬ i.val ≤ j := by omega
      simp [setBit, h, hj, h.ne]
    · subst h; simp [setBit]
    · have h1 : 1 ≤ j - i.val := by omega
      have h2 : ¬ j < i.val := by omega
      simp [setBit, hj, h2, h.ne', show ¬ (j - i.val = 0) by omega, BitVec.getLsbD_of_ge b (j - i.val) h1]
  · have : j ≠ i.val := by omega
    rw [if_neg this, BitVec.getLsbD_of_ge _ _ (by omega), BitVec.getLsbD_of_ge _ _ (by omega)]

/-- The loop of R47 over a list of distinct destinations: a destination in the list takes its source bit, another keeps
what it had. -/
theorem transpose_loop_getLsbD {n : Nat} (v : Block) (t : Table n) (h : n ≤ 64) (is : List (Fin n)) (out : Block)
    (j : Nat) :
    (is.foldl (fun out i => setBit out (Fin.castLE h i) (getBit v t[i])) out).getLsbD j =
      if hj : j < n then
        if (⟨j, hj⟩ : Fin n) ∈ is then v.getLsbD t[j].val else out.getLsbD j
      else out.getLsbD j := by
  induction is generalizing out with
  | nil => simp
  | cons i is ih =>
    rw [List.foldl_cons, ih, setBit_getLsbD, getBit_getLsbD]
    by_cases hj : j < n
    · by_cases hji : j = i.val
      · subst hji; simp
      · have : (⟨j, hj⟩ : Fin n) ≠ i := fun hc => hji (by rw [← hc])
        simp [hj, hji, this]
    · have : j ≠ i.val := by have := i.isLt; omega
      simp [hj, this]

/-- Bit `j` of a transposition is source bit `T[j]` below the table's size, and 0 from there on (R47). -/
theorem transpose_getLsbD {n : Nat} (v : Block) (t : Table n) (h : n ≤ 64) (j : Nat) :
    (transpose v t h).getLsbD j = if hj : j < n then v.getLsbD t[j].val else false := by
  rw [transpose, transpose_loop_getLsbD]
  simp

end Sys2Proof.Machine
end

