-- ==== Sys2Proof/Laws/Operands.lean ====
section
/-! SUPPORT. The small lemmas of the operand form: lengths, and where a write to DOUT lands. -/

namespace Sys2Proof.Machine

@[simp] theorem unpack_length (v : Block) : (unpack v).length = 8 := rfl

@[simp] theorem pack_nil : pack [] = 0 := rfl

theorem pack_cons (b : Byte) (bs : List Byte) : pack (b :: bs) = b.setWidth 64 ||| (pack bs <<< 8) := rfl

/-- A write at the end of DOUT appends: the only write the core makes (R29). -/
theorem memWrite_at_end (dout : List Byte) (v : Block) : memWrite dout dout.length v = dout ++ unpack v := by
  rw [memWrite, List.take_length, List.drop_eq_nil_of_le (by omega), List.append_nil]

theorem numBlocks_eq (len : Nat) : numBlocks len = (len + 7) / 8 := by
  simp [numBlocks, lenOf]

theorem lenOf_eq_numBlocks (len : Nat) : lenOf len = 8 * numBlocks len := by
  rw [numBlocks_eq, lenOf, Nat.mul_comm]

@[simp] theorem inputBlocks_length (din : List Byte) : (inputBlocks din).length = numBlocks din.length := by
  simp [inputBlocks]

theorem lengthTooWide_eq_false (lenw : Option Nat) (n : Nat) :
    lengthTooWide lenw n = false ↔ ∀ w, lenw = some w → n + 8 ≤ 2 ^ w := by
  cases lenw <;> simp [lengthTooWide]

theorem bufferTooSmall_eq_false (cap : Option Nat) (len : Nat) :
    bufferTooSmall cap len = false ↔ ∀ c, cap = some c → lenOf len ≤ c := by
  cases cap <;> simp [bufferTooSmall]

end Sys2Proof.Machine
end

