-- ==== Sys2Proof/Laws/State.lean ====
section
/-! SUPPORT. One lemma per field and update of the state, each true by unfolding, so that no later proof unfolds a record
update. -/

namespace Sys2Proof.Machine

variable (s : State)

@[simp] theorem State.respond_final (resp : Response) : (s.respond resp).final = s.final := rfl
@[simp] theorem State.respond_initDone (resp : Response) : (s.respond resp).initDone = s.initDone := rfl
@[simp] theorem State.respond_l (resp : Response) : (s.respond resp).l = s.l := rfl
@[simp] theorem State.respond_r (resp : Response) : (s.respond resp).r = s.r := rfl
@[simp] theorem State.respond_c (resp : Response) : (s.respond resp).c = s.c := rfl
@[simp] theorem State.respond_d (resp : Response) : (s.respond resp).d = s.d := rfl
@[simp] theorem State.respond_subkey (resp : Response) : (s.respond resp).subkey = s.subkey := rfl
@[simp] theorem State.respond_chain (resp : Response) : (s.respond resp).chain = s.chain := rfl
@[simp] theorem State.respond_keyRoundIx (resp : Response) : (s.respond resp).keyRoundIx = s.keyRoundIx := rfl
@[simp] theorem State.respond_feistelIx (resp : Response) : (s.respond resp).feistelIx = s.feistelIx := rfl
@[simp] theorem State.respond_blockIx (resp : Response) : (s.respond resp).blockIx = s.blockIx := rfl
@[simp] theorem State.respond_held (resp : Response) : (s.respond resp).held = s.held := rfl
@[simp] theorem State.respond_dout (resp : Response) : (s.respond resp).dout = s.dout := rfl
@[simp] theorem State.respond_pending (resp : Response) : (s.respond resp).pending = s.pending := rfl
@[simp] theorem State.respond_cap (resp : Response) : (s.respond resp).cap = s.cap := rfl
@[simp] theorem State.respond_responses (resp : Response) : (s.respond resp).responses = s.responses ++ [resp] := rfl
@[simp] theorem State.respond_lenw (resp : Response) : (s.respond resp).lenw = s.lenw := rfl
@[simp] theorem State.respond_epoch (resp : Response) : (s.respond resp).epoch = s.epoch := rfl

@[simp] theorem State.writeFinal_final : (s.writeFinal).final = deriveFinal s.final := rfl
@[simp] theorem State.writeFinal_initDone : (s.writeFinal).initDone = s.initDone := rfl
@[simp] theorem State.writeFinal_l : (s.writeFinal).l = s.l := rfl
@[simp] theorem State.writeFinal_r : (s.writeFinal).r = s.r := rfl
@[simp] theorem State.writeFinal_c : (s.writeFinal).c = s.c := rfl
@[simp] theorem State.writeFinal_d : (s.writeFinal).d = s.d := rfl
@[simp] theorem State.writeFinal_subkey : (s.writeFinal).subkey = s.subkey := rfl
@[simp] theorem State.writeFinal_chain : (s.writeFinal).chain = s.chain := rfl
@[simp] theorem State.writeFinal_keyRoundIx : (s.writeFinal).keyRoundIx = s.keyRoundIx := rfl
@[simp] theorem State.writeFinal_feistelIx : (s.writeFinal).feistelIx = s.feistelIx := rfl
@[simp] theorem State.writeFinal_blockIx : (s.writeFinal).blockIx = s.blockIx := rfl
@[simp] theorem State.writeFinal_held : (s.writeFinal).held = s.held := rfl
@[simp] theorem State.writeFinal_dout : (s.writeFinal).dout = s.dout := rfl
@[simp] theorem State.writeFinal_pending : (s.writeFinal).pending = s.pending := rfl
@[simp] theorem State.writeFinal_cap : (s.writeFinal).cap = s.cap := rfl
@[simp] theorem State.writeFinal_responses : (s.writeFinal).responses = s.responses := rfl
@[simp] theorem State.writeFinal_lenw : (s.writeFinal).lenw = s.lenw := rfl
@[simp] theorem State.writeFinal_epoch : (s.writeFinal).epoch = s.epoch := rfl

@[simp] theorem State.setInitDone_final : (s.setInitDone).final = s.final := rfl
@[simp] theorem State.setInitDone_initDone : (s.setInitDone).initDone = true := rfl
@[simp] theorem State.setInitDone_l : (s.setInitDone).l = s.l := rfl
@[simp] theorem State.setInitDone_r : (s.setInitDone).r = s.r := rfl
@[simp] theorem State.setInitDone_c : (s.setInitDone).c = s.c := rfl
@[simp] theorem State.setInitDone_d : (s.setInitDone).d = s.d := rfl
@[simp] theorem State.setInitDone_subkey : (s.setInitDone).subkey = s.subkey := rfl
@[simp] theorem State.setInitDone_chain : (s.setInitDone).chain = s.chain := rfl
@[simp] theorem State.setInitDone_keyRoundIx : (s.setInitDone).keyRoundIx = s.keyRoundIx := rfl
@[simp] theorem State.setInitDone_feistelIx : (s.setInitDone).feistelIx = s.feistelIx := rfl
@[simp] theorem State.setInitDone_blockIx : (s.setInitDone).blockIx = s.blockIx := rfl
@[simp] theorem State.setInitDone_held : (s.setInitDone).held = s.held := rfl
@[simp] theorem State.setInitDone_dout : (s.setInitDone).dout = s.dout := rfl
@[simp] theorem State.setInitDone_pending : (s.setInitDone).pending = s.pending := rfl
@[simp] theorem State.setInitDone_cap : (s.setInitDone).cap = s.cap := rfl
@[simp] theorem State.setInitDone_responses : (s.setInitDone).responses = s.responses := rfl
@[simp] theorem State.setInitDone_lenw : (s.setInitDone).lenw = s.lenw := rfl
@[simp] theorem State.setInitDone_epoch : (s.setInitDone).epoch = s.epoch := rfl

@[simp] theorem State.loadBlock_final (block : Block) : (s.loadBlock block).final = s.final := rfl
@[simp] theorem State.loadBlock_initDone (block : Block) : (s.loadBlock block).initDone = s.initDone := rfl
@[simp] theorem State.loadBlock_l (block : Block) : (s.loadBlock block).l = (loadHalves block).l := rfl
@[simp] theorem State.loadBlock_r (block : Block) : (s.loadBlock block).r = (loadHalves block).r := rfl
@[simp] theorem State.loadBlock_c (block : Block) : (s.loadBlock block).c = s.c := rfl
@[simp] theorem State.loadBlock_d (block : Block) : (s.loadBlock block).d = s.d := rfl
@[simp] theorem State.loadBlock_subkey (block : Block) : (s.loadBlock block).subkey = s.subkey := rfl
@[simp] theorem State.loadBlock_chain (block : Block) : (s.loadBlock block).chain = s.chain := rfl
@[simp] theorem State.loadBlock_keyRoundIx (block : Block) : (s.loadBlock block).keyRoundIx = s.keyRoundIx := rfl
@[simp] theorem State.loadBlock_feistelIx (block : Block) : (s.loadBlock block).feistelIx = s.feistelIx := rfl
@[simp] theorem State.loadBlock_blockIx (block : Block) : (s.loadBlock block).blockIx = s.blockIx := rfl
@[simp] theorem State.loadBlock_held (block : Block) : (s.loadBlock block).held = s.held := rfl
@[simp] theorem State.loadBlock_dout (block : Block) : (s.loadBlock block).dout = s.dout := rfl
@[simp] theorem State.loadBlock_pending (block : Block) : (s.loadBlock block).pending = s.pending := rfl
@[simp] theorem State.loadBlock_cap (block : Block) : (s.loadBlock block).cap = s.cap := rfl
@[simp] theorem State.loadBlock_responses (block : Block) : (s.loadBlock block).responses = s.responses := rfl
@[simp] theorem State.loadBlock_lenw (block : Block) : (s.loadBlock block).lenw = s.lenw := rfl
@[simp] theorem State.loadBlock_epoch (block : Block) : (s.loadBlock block).epoch = s.epoch := rfl

@[simp] theorem State.runSchedule_final (key : Key) : (s.runSchedule key).final = s.final := rfl
@[simp] theorem State.runSchedule_initDone (key : Key) : (s.runSchedule key).initDone = s.initDone := rfl
@[simp] theorem State.runSchedule_l (key : Key) : (s.runSchedule key).l = s.l := rfl
@[simp] theorem State.runSchedule_r (key : Key) : (s.runSchedule key).r = s.r := rfl
@[simp] theorem State.runSchedule_c (key : Key) : (s.runSchedule key).c = (keySchedule s.subkey key).c := rfl
@[simp] theorem State.runSchedule_d (key : Key) : (s.runSchedule key).d = (keySchedule s.subkey key).d := rfl
@[simp] theorem State.runSchedule_subkey (key : Key) : (s.runSchedule key).subkey = (keySchedule s.subkey key).subkey := rfl
@[simp] theorem State.runSchedule_chain (key : Key) : (s.runSchedule key).chain = s.chain := rfl
@[simp] theorem State.runSchedule_keyRoundIx (key : Key) : (s.runSchedule key).keyRoundIx = 16 := rfl
@[simp] theorem State.runSchedule_feistelIx (key : Key) : (s.runSchedule key).feistelIx = s.feistelIx := rfl
@[simp] theorem State.runSchedule_blockIx (key : Key) : (s.runSchedule key).blockIx = s.blockIx := rfl
@[simp] theorem State.runSchedule_held (key : Key) : (s.runSchedule key).held = s.held := rfl
@[simp] theorem State.runSchedule_dout (key : Key) : (s.runSchedule key).dout = s.dout := rfl
@[simp] theorem State.runSchedule_pending (key : Key) : (s.runSchedule key).pending = s.pending := rfl
@[simp] theorem State.runSchedule_cap (key : Key) : (s.runSchedule key).cap = s.cap := rfl
@[simp] theorem State.runSchedule_responses (key : Key) : (s.runSchedule key).responses = s.responses := rfl
@[simp] theorem State.runSchedule_lenw (key : Key) : (s.runSchedule key).lenw = s.lenw := rfl
@[simp] theorem State.runSchedule_epoch (key : Key) : (s.runSchedule key).epoch = s.epoch := rfl

@[simp] theorem State.runRounds_final (dir : Direction) : (s.runRounds dir).final = s.final := rfl
@[simp] theorem State.runRounds_initDone (dir : Direction) : (s.runRounds dir).initDone = s.initDone := rfl
@[simp] theorem State.runRounds_l (dir : Direction) : (s.runRounds dir).l = (feistel s.subkey dir ⟨s.l, s.r⟩).l := rfl
@[simp] theorem State.runRounds_r (dir : Direction) : (s.runRounds dir).r = (feistel s.subkey dir ⟨s.l, s.r⟩).r := rfl
@[simp] theorem State.runRounds_c (dir : Direction) : (s.runRounds dir).c = s.c := rfl
@[simp] theorem State.runRounds_d (dir : Direction) : (s.runRounds dir).d = s.d := rfl
@[simp] theorem State.runRounds_subkey (dir : Direction) : (s.runRounds dir).subkey = s.subkey := rfl
@[simp] theorem State.runRounds_chain (dir : Direction) : (s.runRounds dir).chain = s.chain := rfl
@[simp] theorem State.runRounds_keyRoundIx (dir : Direction) : (s.runRounds dir).keyRoundIx = s.keyRoundIx := rfl
@[simp] theorem State.runRounds_feistelIx (dir : Direction) : (s.runRounds dir).feistelIx = 16 := rfl
@[simp] theorem State.runRounds_blockIx (dir : Direction) : (s.runRounds dir).blockIx = s.blockIx := rfl
@[simp] theorem State.runRounds_held (dir : Direction) : (s.runRounds dir).held = s.held := rfl
@[simp] theorem State.runRounds_dout (dir : Direction) : (s.runRounds dir).dout = s.dout := rfl
@[simp] theorem State.runRounds_pending (dir : Direction) : (s.runRounds dir).pending = s.pending := rfl
@[simp] theorem State.runRounds_cap (dir : Direction) : (s.runRounds dir).cap = s.cap := rfl
@[simp] theorem State.runRounds_responses (dir : Direction) : (s.runRounds dir).responses = s.responses := rfl
@[simp] theorem State.runRounds_lenw (dir : Direction) : (s.runRounds dir).lenw = s.lenw := rfl
@[simp] theorem State.runRounds_epoch (dir : Direction) : (s.runRounds dir).epoch = s.epoch := rfl

@[simp] theorem State.beginCbc_final (dir : Direction) (iv : Block) (key : Key) (din : List Byte) : (s.beginCbc dir iv key din).final = s.final := rfl
@[simp] theorem State.beginCbc_initDone (dir : Direction) (iv : Block) (key : Key) (din : List Byte) : (s.beginCbc dir iv key din).initDone = s.initDone := rfl
@[simp] theorem State.beginCbc_l (dir : Direction) (iv : Block) (key : Key) (din : List Byte) : (s.beginCbc dir iv key din).l = s.l := rfl
@[simp] theorem State.beginCbc_r (dir : Direction) (iv : Block) (key : Key) (din : List Byte) : (s.beginCbc dir iv key din).r = s.r := rfl
@[simp] theorem State.beginCbc_c (dir : Direction) (iv : Block) (key : Key) (din : List Byte) : (s.beginCbc dir iv key din).c = s.c := rfl
@[simp] theorem State.beginCbc_d (dir : Direction) (iv : Block) (key : Key) (din : List Byte) : (s.beginCbc dir iv key din).d = s.d := rfl
@[simp] theorem State.beginCbc_subkey (dir : Direction) (iv : Block) (key : Key) (din : List Byte) : (s.beginCbc dir iv key din).subkey = s.subkey := rfl
@[simp] theorem State.beginCbc_chain (dir : Direction) (iv : Block) (key : Key) (din : List Byte) : (s.beginCbc dir iv key din).chain = iv := rfl
@[simp] theorem State.beginCbc_keyRoundIx (dir : Direction) (iv : Block) (key : Key) (din : List Byte) : (s.beginCbc dir iv key din).keyRoundIx = s.keyRoundIx := rfl
@[simp] theorem State.beginCbc_feistelIx (dir : Direction) (iv : Block) (key : Key) (din : List Byte) : (s.beginCbc dir iv key din).feistelIx = s.feistelIx := rfl
@[simp] theorem State.beginCbc_blockIx (dir : Direction) (iv : Block) (key : Key) (din : List Byte) : (s.beginCbc dir iv key din).blockIx = 0 := rfl
@[simp] theorem State.beginCbc_held (dir : Direction) (iv : Block) (key : Key) (din : List Byte) : (s.beginCbc dir iv key din).held = some ⟨dir, iv, key, din⟩ := rfl
@[simp] theorem State.beginCbc_dout (dir : Direction) (iv : Block) (key : Key) (din : List Byte) : (s.beginCbc dir iv key din).dout = [] := rfl
@[simp] theorem State.beginCbc_pending (dir : Direction) (iv : Block) (key : Key) (din : List Byte) : (s.beginCbc dir iv key din).pending = s.pending := rfl
@[simp] theorem State.beginCbc_cap (dir : Direction) (iv : Block) (key : Key) (din : List Byte) : (s.beginCbc dir iv key din).cap = s.cap := rfl
@[simp] theorem State.beginCbc_responses (dir : Direction) (iv : Block) (key : Key) (din : List Byte) : (s.beginCbc dir iv key din).responses = s.responses := rfl
@[simp] theorem State.beginCbc_lenw (dir : Direction) (iv : Block) (key : Key) (din : List Byte) : (s.beginCbc dir iv key din).lenw = s.lenw := rfl
@[simp] theorem State.beginCbc_epoch (dir : Direction) (iv : Block) (key : Key) (din : List Byte) : (s.beginCbc dir iv key din).epoch = s.epoch := rfl

@[simp] theorem State.releaseRegisters_final : (s.releaseRegisters).final = s.final := rfl
@[simp] theorem State.releaseRegisters_initDone : (s.releaseRegisters).initDone = s.initDone := rfl
@[simp] theorem State.releaseRegisters_l : (s.releaseRegisters).l = Config.freeL s.epoch := rfl
@[simp] theorem State.releaseRegisters_r : (s.releaseRegisters).r = Config.freeR s.epoch := rfl
@[simp] theorem State.releaseRegisters_c : (s.releaseRegisters).c = Config.freeC s.epoch := rfl
@[simp] theorem State.releaseRegisters_d : (s.releaseRegisters).d = Config.freeD s.epoch := rfl
@[simp] theorem State.releaseRegisters_subkey : (s.releaseRegisters).subkey = Vector.ofFn fun i => Config.freeSubkey s.epoch i.val := rfl
@[simp] theorem State.releaseRegisters_chain : (s.releaseRegisters).chain = Config.freeChain s.epoch := rfl
@[simp] theorem State.releaseRegisters_keyRoundIx : (s.releaseRegisters).keyRoundIx = Config.freeKeyRound s.epoch := rfl
@[simp] theorem State.releaseRegisters_feistelIx : (s.releaseRegisters).feistelIx = Config.freeFeistelRound s.epoch := rfl
@[simp] theorem State.releaseRegisters_blockIx : (s.releaseRegisters).blockIx = Config.freeBlockIndex s.epoch := rfl
@[simp] theorem State.releaseRegisters_held : (s.releaseRegisters).held = s.held := rfl
@[simp] theorem State.releaseRegisters_dout : (s.releaseRegisters).dout = s.dout := rfl
@[simp] theorem State.releaseRegisters_pending : (s.releaseRegisters).pending = s.pending := rfl
@[simp] theorem State.releaseRegisters_cap : (s.releaseRegisters).cap = s.cap := rfl
@[simp] theorem State.releaseRegisters_responses : (s.releaseRegisters).responses = s.responses := rfl
@[simp] theorem State.releaseRegisters_lenw : (s.releaseRegisters).lenw = s.lenw := rfl
@[simp] theorem State.releaseRegisters_epoch : (s.releaseRegisters).epoch = s.epoch + 1 := rfl

@[simp] theorem State.take_final (p : Presented) (rest : List Presented) : (s.take p rest).final = s.final := rfl
@[simp] theorem State.take_initDone (p : Presented) (rest : List Presented) : (s.take p rest).initDone = s.initDone := rfl
@[simp] theorem State.take_l (p : Presented) (rest : List Presented) : (s.take p rest).l = s.l := rfl
@[simp] theorem State.take_r (p : Presented) (rest : List Presented) : (s.take p rest).r = s.r := rfl
@[simp] theorem State.take_c (p : Presented) (rest : List Presented) : (s.take p rest).c = s.c := rfl
@[simp] theorem State.take_d (p : Presented) (rest : List Presented) : (s.take p rest).d = s.d := rfl
@[simp] theorem State.take_subkey (p : Presented) (rest : List Presented) : (s.take p rest).subkey = s.subkey := rfl
@[simp] theorem State.take_chain (p : Presented) (rest : List Presented) : (s.take p rest).chain = s.chain := rfl
@[simp] theorem State.take_keyRoundIx (p : Presented) (rest : List Presented) : (s.take p rest).keyRoundIx = s.keyRoundIx := rfl
@[simp] theorem State.take_feistelIx (p : Presented) (rest : List Presented) : (s.take p rest).feistelIx = s.feistelIx := rfl
@[simp] theorem State.take_blockIx (p : Presented) (rest : List Presented) : (s.take p rest).blockIx = s.blockIx := rfl
@[simp] theorem State.take_held (p : Presented) (rest : List Presented) : (s.take p rest).held = s.held := rfl
@[simp] theorem State.take_dout (p : Presented) (rest : List Presented) : (s.take p rest).dout = s.dout := rfl
@[simp] theorem State.take_pending (p : Presented) (rest : List Presented) : (s.take p rest).pending = rest := rfl
@[simp] theorem State.take_cap (p : Presented) (rest : List Presented) : (s.take p rest).cap = p.cap := rfl
@[simp] theorem State.take_responses (p : Presented) (rest : List Presented) : (s.take p rest).responses = s.responses := rfl
@[simp] theorem State.take_lenw (p : Presented) (rest : List Presented) : (s.take p rest).lenw = s.lenw := rfl
@[simp] theorem State.take_epoch (p : Presented) (rest : List Presented) : (s.take p rest).epoch = s.epoch := rfl

@[simp] theorem State.present_final (p : Presented) : (s.present p).final = s.final := rfl
@[simp] theorem State.present_initDone (p : Presented) : (s.present p).initDone = s.initDone := rfl
@[simp] theorem State.present_l (p : Presented) : (s.present p).l = s.l := rfl
@[simp] theorem State.present_r (p : Presented) : (s.present p).r = s.r := rfl
@[simp] theorem State.present_c (p : Presented) : (s.present p).c = s.c := rfl
@[simp] theorem State.present_d (p : Presented) : (s.present p).d = s.d := rfl
@[simp] theorem State.present_subkey (p : Presented) : (s.present p).subkey = s.subkey := rfl
@[simp] theorem State.present_chain (p : Presented) : (s.present p).chain = s.chain := rfl
@[simp] theorem State.present_keyRoundIx (p : Presented) : (s.present p).keyRoundIx = s.keyRoundIx := rfl
@[simp] theorem State.present_feistelIx (p : Presented) : (s.present p).feistelIx = s.feistelIx := rfl
@[simp] theorem State.present_blockIx (p : Presented) : (s.present p).blockIx = s.blockIx := rfl
@[simp] theorem State.present_held (p : Presented) : (s.present p).held = s.held := rfl
@[simp] theorem State.present_dout (p : Presented) : (s.present p).dout = s.dout := rfl
@[simp] theorem State.present_pending (p : Presented) : (s.present p).pending = s.pending ++ [p] := rfl
@[simp] theorem State.present_cap (p : Presented) : (s.present p).cap = s.cap := rfl
@[simp] theorem State.present_responses (p : Presented) : (s.present p).responses = s.responses := rfl
@[simp] theorem State.present_lenw (p : Presented) : (s.present p).lenw = s.lenw := rfl
@[simp] theorem State.present_epoch (p : Presented) : (s.present p).epoch = s.epoch := rfl

end Sys2Proof.Machine
end

