-- ==== Sys2Proof/Laws/Ops.lean ====
section
/-! SUPPORT. What each shared operation can do, said once: the block step leaves everything but its registers and DOUT;
a CBC operation is refused for one of three reasons or runs to its end; a step waits, refuses a record or runs an
operation. -/

namespace Sys2Proof.Machine

variable (s : State)

/-! ### The block step and its repetition -/

theorem State.blockStep_idle (h : s.held = none) : s.blockStep = s := by
  rw [State.blockStep, h]

@[simp] theorem State.blockStep_final : s.blockStep.final = s.final := by
  unfold State.blockStep; split <;> rfl

@[simp] theorem State.blockStep_initDone : s.blockStep.initDone = s.initDone := by
  unfold State.blockStep; split <;> rfl

@[simp] theorem State.blockStep_held : s.blockStep.held = s.held := by
  unfold State.blockStep; split <;> rfl

@[simp] theorem State.blockStep_pending : s.blockStep.pending = s.pending := by
  unfold State.blockStep; split <;> rfl

@[simp] theorem State.blockStep_cap : s.blockStep.cap = s.cap := by
  unfold State.blockStep; split <;> rfl

@[simp] theorem State.blockStep_responses : s.blockStep.responses = s.responses := by
  unfold State.blockStep; split <;> rfl

@[simp] theorem State.blockStep_lenw : s.blockStep.lenw = s.lenw := by
  unfold State.blockStep; split <;> rfl

@[simp] theorem State.blockStep_epoch : s.blockStep.epoch = s.epoch := by
  unfold State.blockStep; split <;> rfl

variable (k : Nat)

theorem State.runBlocks_zero : State.runBlocks 0 s = s := rfl

theorem State.runBlocks_succ : State.runBlocks (k + 1) s = State.runBlocks k s.blockStep := rfl

@[simp] theorem State.runBlocks_final : (State.runBlocks k s).final = s.final := by
  induction k generalizing s <;> simp_all [State.runBlocks]

@[simp] theorem State.runBlocks_initDone : (State.runBlocks k s).initDone = s.initDone := by
  induction k generalizing s <;> simp_all [State.runBlocks]

@[simp] theorem State.runBlocks_held : (State.runBlocks k s).held = s.held := by
  induction k generalizing s <;> simp_all [State.runBlocks]

@[simp] theorem State.runBlocks_pending : (State.runBlocks k s).pending = s.pending := by
  induction k generalizing s <;> simp_all [State.runBlocks]

@[simp] theorem State.runBlocks_cap : (State.runBlocks k s).cap = s.cap := by
  induction k generalizing s <;> simp_all [State.runBlocks]

@[simp] theorem State.runBlocks_responses : (State.runBlocks k s).responses = s.responses := by
  induction k generalizing s <;> simp_all [State.runBlocks]

@[simp] theorem State.runBlocks_lenw : (State.runBlocks k s).lenw = s.lenw := by
  induction k generalizing s <;> simp_all [State.runBlocks]

@[simp] theorem State.runBlocks_epoch : (State.runBlocks k s).epoch = s.epoch := by
  induction k generalizing s <;> simp_all [State.runBlocks]

/-! ### The end of a CBC operation -/

@[simp] theorem State.endCbc_final : s.endCbc.final = s.final := rfl
@[simp] theorem State.endCbc_initDone : s.endCbc.initDone = s.initDone := rfl
@[simp] theorem State.endCbc_held : s.endCbc.held = none := rfl
@[simp] theorem State.endCbc_dout : s.endCbc.dout = [] := rfl
@[simp] theorem State.endCbc_pending : s.endCbc.pending = s.pending := rfl
@[simp] theorem State.endCbc_cap : s.endCbc.cap = s.cap := rfl
@[simp] theorem State.endCbc_responses : s.endCbc.responses = s.responses ++ [.x s.dout] := rfl
@[simp] theorem State.endCbc_lenw : s.endCbc.lenw = s.lenw := rfl
@[simp] theorem State.endCbc_epoch : s.endCbc.epoch = s.epoch + 1 := rfl

/-! ### What the operations answer -/

/-- Whatever a CBC operation answers: a refusal, exactly when one is due, or the state at its end. -/
theorem cbcOperation_cases (dir : Direction) (iv : Block) (key : Key) (din : List Byte) :
    (∃ r, s.cbcRefusal din.length = some r ∧ cbcOperation dir iv key din s = .refused r) ∨
    (s.cbcRefusal din.length = none ∧ cbcOperation dir iv key din s =
      .next (State.runBlocks (numBlocks din.length) (s.beginCbc dir iv key din)).endCbc) := by
  unfold cbcOperation
  cases h : s.cbcRefusal din.length with
  | none => exact .inr ⟨rfl, rfl⟩
  | some r => exact .inl ⟨r, rfl, rfl⟩

/-- A CBC operation that completes was not refused, and ends as its block steps leave it. -/
theorem cbcOperation_next {dir : Direction} {iv : Block} {key : Key} {din : List Byte} {s s' : State}
    (h : cbcOperation dir iv key din s = .next s') :
    s.cbcRefusal din.length = none ∧
      s' = (State.runBlocks (numBlocks din.length) (s.beginCbc dir iv key din)).endCbc := by
  obtain ⟨r, -, hr⟩ | ⟨h0, hn⟩ := cbcOperation_cases s dir iv key din
  · rw [hr] at h; cases h
  · rw [hn] at h; cases h; exact ⟨h0, rfl⟩

/-- Every way an operation can complete. -/
theorem exec_next {i : Instr} {s s' : State} (h : exec i s = .next s') :
    (i = .init ∧ s' = s.writeFinal.setInitDone.respond .z) ∨
    (∃ n, i = .len n ∧ s' = s.respond (.n (lenOf n))) ∨
    (∃ dir iv key din, (i = .cbcEnc iv key din ∧ dir = .encrypt ∨ i = .cbcDec iv key din ∧ dir = .decrypt) ∧
      s.cbcRefusal din.length = none ∧
      s' = (State.runBlocks (numBlocks din.length) (s.beginCbc dir iv key din)).endCbc) := by
  cases i with
  | init =>
    simp only [exec, execInit] at h
    cases h; exact .inl ⟨rfl, rfl⟩
  | len n =>
    simp only [exec, execLen] at h
    split at h
    · cases h
    · cases h; exact .inr (.inl ⟨n, rfl, rfl⟩)
  | cbcEnc iv key din =>
    obtain ⟨h0, hn⟩ := cbcOperation_next h
    exact .inr (.inr ⟨.encrypt, iv, key, din, .inl ⟨rfl, rfl⟩, h0, hn⟩)
  | cbcDec iv key din =>
    obtain ⟨h0, hn⟩ := cbcOperation_next h
    exact .inr (.inr ⟨.decrypt, iv, key, din, .inr ⟨rfl, rfl⟩, h0, hn⟩)

/-- Every way a step can give a next state: the core waits, or it runs the operation presented first. -/
theorem step_next {s s' : State} (h : step s = .next s') :
    (s.pending = [] ∧ s' = s) ∨
    (∃ p rest i, s.pending = p :: rest ∧ decode p.command = .ok i ∧ exec i (s.take p rest) = .next s') := by
  unfold step at h
  split at h
  · cases h; exact .inl ⟨‹_›, rfl⟩
  · split at h
    · exact .inr ⟨_, _, _, ‹_›, ‹_›, h⟩
    · cases h

end Sys2Proof.Machine
end

