-- ==== Sys2Proof/Laws/PerInstr.lean ====
section
/-! SUPPORT. The per-operation family OpcodeWord: the encoding of an operation opens with its code of 30_encoding.md R36, and
has the fields that this code calls for (R38). -/

namespace Sys2Proof.Laws.OpcodeWord

/-- The record of `i` opens with the `op` code of `i` and has the format this code selects. -/
def Statement (i : Instr) : Prop :=
  (encode i).op = i.opcode ∧ (encode i).format = formatOf (encode i).op

theorem init : Statement .init := ⟨rfl, rfl⟩

theorem len (n : Nat) : Statement (.len n) := ⟨rfl, rfl⟩

theorem cbcEnc (iv : Block) (key : Key) (din : List Byte) : Statement (.cbcEnc iv key din) := ⟨rfl, rfl⟩

theorem cbcDec (iv : Block) (key : Key) (din : List Byte) : Statement (.cbcDec iv key din) := ⟨rfl, rfl⟩

end Sys2Proof.Laws.OpcodeWord
end

