-- ==== Sys2Proof/Laws/Refusals.lean ====
section
/-! SUPPORT. When a CBC operation is refused, and the small lemmas of the chained blocks. -/

namespace Sys2Proof.Machine

/-- A CBC operation is executed exactly in the states that are ready for it. -/
theorem cbcRefusal_eq_none (s : State) (n : Nat) : s.cbcRefusal n = none ↔ s.ReadyFor n := by
  have hw := lengthTooWide_eq_false s.lenw n
  have hb := bufferTooSmall_eq_false s.cap n
  constructor
  · intro h
    unfold State.cbcRefusal State.usedBeforeInit at h
    split at h <;> [cases h; skip]
    split at h <;> [cases h; skip]
    split at h <;> [cases h; skip]
    exact ⟨by simp_all, hw.1 (by simp_all), hb.1 (by simp_all)⟩
  · intro ⟨h1, h2, h3⟩
    simp [State.cbcRefusal, State.usedBeforeInit, h1, hw.2 h2, hb.2 h3]

/-- A CBC operation answers a refusal exactly when one is due. -/
theorem cbcOperation_refused (dir : Direction) (iv : Block) (key : Key) (din : List Byte) (s : State) (r : Refusal) :
    cbcOperation dir iv key din s = .refused r ↔ s.cbcRefusal din.length = some r := by
  unfold cbcOperation
  split <;> rename_i h <;> simp [h]

/-- A refused operation changes nothing of the core but that it is no longer presented, and marks the session. -/
theorem Session.serve_refused {x : Session} {r : Refusal} (h : step x.state = .refused r) :
    x.serve = { state := { x.state with pending := x.state.pending.tail }, marks := x.marks ++ [r] } := by
  rw [Session.serve, h]

/-- An executed operation leaves the marks. -/
theorem Session.serve_next {x : Session} {s : State} (h : step x.state = .next s) :
    x.serve = { state := s, marks := x.marks } := by
  rw [Session.serve, h]

@[simp] theorem cbcBlocks_nil (final : Table 64) (dir : Direction) (key : Key) (chain : Block) :
    cbcBlocks final dir key chain [] = [] := rfl

theorem cbcBlocks_cons (final : Table 64) (dir : Direction) (key : Key) (chain b : Block) (bs : List Block) :
    cbcBlocks final dir key chain (b :: bs) = cbcBlock final dir key chain b ::
      cbcBlocks final dir key (chainNext dir b (cbcBlock final dir key chain b)) bs := rfl

@[simp] theorem cbcBlocks_length (final : Table 64) (dir : Direction) (key : Key) (chain : Block) (bs : List Block) :
    (cbcBlocks final dir key chain bs).length = bs.length := by
  induction bs generalizing chain with
  | nil => rfl
  | cons b bs ih => rw [cbcBlocks_cons, List.length_cons, ih, List.length_cons]

end Sys2Proof.Machine
end

