-- ==== Sys2Proof/Tests/Slice0.lean ====
section
/-! SUPPORT. The model's own tests. Expected values are the spec's: the vectors of 95_test_vectors.md and the worked examples of
the rules. Then, for every statement with hypotheses, a state and operands that meet them, at the boundary where there is one. -/

namespace Sys2Proof.Tests

open Sys2Proof.Machine

/-- The state in which INIT has run, with FINAL as 41_constant_tables.md R55 lists it, and all else as at reset. -/
def ready : State := { State.reset with final := finalAfterInit, initDone := true }

/-- The responses of an outcome; none where it is not a next state. -/
def answers (o : Host.Outcome State Fault Refusal) : List Response :=
  match o with
  | .next s => s.responses
  | .fault _ => []
  | .refused _ => []

/-- The refusal of an outcome. -/
def refusal (o : Host.Outcome State Fault Refusal) : Option Refusal :=
  match o with
  | .next _ => none
  | .fault _ => none
  | .refused r => some r

/-! ### Well-formedness (R38, R86): length operands of LENW bits -/

theorem test_wellFormed_len : (Instr.len 255).wellFormed (some 8) = true := by decide
theorem test_illFormed_len : (Instr.len 256).wellFormed (some 8) = false := by decide
theorem test_illFormed_cbcEnc : (Instr.cbcEnc 0 0 [1, 2]).wellFormed (some 1) = false := by decide
theorem test_illFormed_cbcDec : (Instr.cbcDec 0 0 [1, 2]).wellFormed (some 1) = false := by decide
theorem test_wellFormed_default : (Instr.len (2 ^ 64)).wellFormed Config.defaultLenw = true := by decide

/-! ### Decoding: the records of 95_test_vectors.md programs P1 and P2, written out from R36 and R38 -/

theorem test_decode_init : decode (.z 0b00#2) = .ok .init := by decide
theorem test_decode_len : decode (.n 0b01#2 13) = .ok (.len 13) := by decide
theorem test_decode_cbcEnc :
    decode (.x 0b10#2 0x0000000000000000 0x133457799BBCDFF1 8 [0xEF, 0xCD, 0xAB, 0x89, 0x67, 0x45, 0x23, 0x01]) =
      .ok (.cbcEnc 0 0x133457799BBCDFF1 [0xEF, 0xCD, 0xAB, 0x89, 0x67, 0x45, 0x23, 0x01]) := by decide
theorem test_decode_cbcDec :
    decode (.x 0b11#2 0x0000000000000000 0x133457799BBCDFF1 2 [0x05, 0xB4]) =
      .ok (.cbcDec 0 0x133457799BBCDFF1 [0x05, 0xB4]) := by decide
theorem test_decode_rejects_format : decode (.z 0b01#2) = .error .formatMismatch := by decide
theorem test_decode_rejects_length : decode (.x 0b10#2 0 0 3 [1, 2]) = .error .lengthMismatch := by decide
theorem test_table_words : (List.range 5).map (decodeTableWord 8) =
    [some .init, some (.len 0), some (.cbcEnc 0 0 []), some (.cbcDec 0 0 []), none] := by decide

/-! ### The transposition engine and INIT -/

theorem test_transpose_T1 : transpose 0x0000000000000001 IP = 0x0000008000000000 := by decide +kernel
theorem test_transpose_T9 : transpose 0x00000001 E = 0x080000000020 := by decide +kernel
theorem test_transpose_T6 : transpose 0x8000001 ROT1 = 0x0000003 := by decide +kernel

/-- Vector I1: INIT as the first operation after reset. -/
theorem test_init : (match step (State.reset.withFetchWord 8 0) with
    | .next s => decide (s.final = finalAfterInit) && s.initDone && decide (s.responses = [.z])
    | _ => false) = true := by decide +kernel

/-! ### The round function, the key schedule, the block transform -/

theorem test_sbox_F10 : sbox 3 58 = 2 := by decide
theorem test_roundF_F12 : roundF 0xF0AAF0AA 0xC811FFBCBC06 = 0x234AA9BB := by decide +kernel
theorem test_subkeys_K1 : (subkeysOf 0x133457799BBCDFF1)[0] = 0xC811FFBCBC06 ∧
    (subkeysOf 0x133457799BBCDFF1)[15] = 0xD5F8432F6CF2 := by decide +kernel
theorem test_block_B10 :
    desBlock finalAfterInit 0x0123456789ABCDEF 0x133457799BBCDFF1 .decrypt = 0xEE0F7C12E0B09338 := by decide +kernel

/-! ### LEN, CBC.ENC, CBC.DEC -/

/-- P2 step 2; LEN before INIT is P4 step 1. -/
theorem test_len : answers (exec (.len 13) State.reset) = [.n 16] := by decide
/-- Vector L1: a model with LENW = 32 refuses this length. -/
theorem test_len_width : refusal (exec (.len 4294967295) { ready with lenw := some 32 }) = some .lengthTooWide := by decide

theorem test_pack_M4 : pack [0x01, 0x02, 0x03, 0x04, 0x05, 0x06, 0x07] = 0x0007060504030201 := by decide
theorem test_unpack_M9 : unpack 0x85E813540F0AB405 = [0x05, 0xB4, 0x0A, 0x0F, 0x54, 0x13, 0xE8, 0x85] := by decide

/-- Vector C2: one block with a nonzero `iv`. -/
theorem test_cbcEnc : answers (exec (.cbcEnc 0x1234567890ABCDEF 0x133457799BBCDFF1
    [0xEF, 0xCD, 0xAB, 0x89, 0x67, 0x45, 0x23, 0x01]) ready) =
    [.x [0xEA, 0x79, 0xA1, 0x9F, 0x2C, 0x45, 0xDC, 0x97]] := by decide +kernel
/-- Program P5 step 2: a buffer of 8 bytes for 16. -/
theorem test_cbcEnc_buffer : refusal (exec (.cbcEnc 0 0x0123456789ABCDEF
    [0x01, 0x02, 0x03, 0x04, 0x05, 0x06, 0x07, 0x00, 0x00]) { ready with cap := some 8 }) =
    some .outputBufferTooSmall := by decide

/-- Vector C9: two blocks, the last one partial, and the chaining value that is the input block. -/
theorem test_cbcDec : answers (exec (.cbcDec 0x0F0E0D0C0B0A0908 0x133457799BBCDFF1
    [0x10, 0x11, 0x12, 0x13, 0x14, 0x15, 0x16, 0x17, 0x18, 0x19, 0x1A]) ready) =
    [.x [0x99, 0x70, 0x2C, 0x4C, 0x86, 0x5D, 0x73, 0xD7, 0x01, 0xCE, 0x4C, 0x93, 0x30, 0x17, 0x85, 0xD4]] := by
  decide +kernel
/-- R102: the empty input is refused too before INIT. -/
theorem test_cbcDec_before_init : refusal (step (State.reset.withFetchWord 8 3)) = some .useBeforeInit := by decide

/-! ### Witnesses: for each statement with hypotheses, data that meet them together -/

theorem ready_final_inverse : InverseOfIP ready.final := by decide +kernel

theorem ready_for (n : Nat) : ready.ReadyFor n :=
  (cbcRefusal_eq_none ready n).1 rfl

theorem ready_inv : ready.Inv :=
  ⟨fun _ => ready_final_inverse, rfl, rfl, fun _ h => nomatch h⟩

/-- A command record for each outcome of the decoder, presented first. -/
def presented (c : Command) : State := ready.present { command := c, cap := some 16 }

theorem witness_StepRunsTheOperationPresentedFirst :
    ready.pending = [] ∧ (presented (.n 0b01#2 9)).pending = [⟨.n 0b01#2 9, some 16⟩] ∧
    decode (.n 0b01#2 9) = .ok (.len 9) ∧ decode (.z 0b11#2) = .error .formatMismatch := by decide

theorem witness_PackIsLittleEndian :
    ([0, 1, 2, 3, 4, 5, 6, 7] : List Byte).length ≤ 8 ∧ 1 + 8 ≤ (List.replicate 9 (0 : Byte)).length ∧ 63 / 8 < 8 := by decide

theorem witness_UnpackInvertsPack :
    ([0, 1, 2, 3, 4, 5, 6, 7] : List Byte).length = 8 ∧ 8 ≤ (List.replicate 8 (0 : Byte)).length ∧ (7 < 8 ∨ 8 + 8 ≤ 7) := by decide

theorem witness_BitPrimitives : (62 : BitIndex) ≠ 63 := by decide

/-- A full table and the shortest one of the core. -/
theorem witness_TransposeBitByBit : 64 ≤ 64 ∧ 28 ≤ 64 := by decide

theorem witness_TranspositionLaws :
    (∀ j : Fin 28, ROT1[j] ≠ 28) ∧ E[(5 : Fin 48)] = E[(43 : Fin 48)] ∧ 28 ≤ (28 : BitIndex).val ∧
    (∀ i : Fin 64, finalAfterInit[IP[i]] = i) := by decide +kernel

theorem witness_InitAgainChangesNothing :
    (∃ t, exec .init State.reset = .next t) ∧ ready.initDone = true ∧ InverseOfIP ready.final :=
  ⟨⟨_, rfl⟩, rfl, ready_final_inverse⟩

theorem witness_InitMakesFinalTheInverse :
    (∃ t, exec .init State.reset = .next t) ∧ ∀ i : Fin 64, finalAfterInit[IP[i]] = i :=
  ⟨⟨_, rfl⟩, ready_final_inverse⟩

theorem witness_RoundFunctionLaws : expand 0 ^^^ 0 = expand 0xFFFFFFFF ^^^ 0xFFFFFFFFFFFF := by decide +kernel

theorem witness_ParityPositionsAreIgnored : (0x0101010101010101 : Key) &&& 0xFEFEFEFEFEFEFEFE = 0 := by decide

theorem witness_BlockTransformInverts : InverseOfIP finalAfterInit := ready_final_inverse

theorem witness_EqualSubkeysMakeSelfInverse :
    InverseOfIP finalAfterInit ∧
    ∀ r : Fin 16, (subkeysOf 0x0101010101010101)[r] = (subkeysOf 0x0101010101010101)[0] :=
  ⟨ready_final_inverse, by decide +kernel⟩

/-- The last length that fits 8 bits with its rounding, and the first that does not. -/
theorem witness_LenRoundsUp :
    State.LengthFits { ready with lenw := some 8 } 248 ∧ 2 ^ 8 < 249 + 8 :=
  ⟨(lengthTooWide_eq_false (some 8) 248).1 (by decide), by decide⟩

/-- The buffer that is exactly large enough, with the largest length that fits 4 bits. -/
theorem witness_CbcEncCompletes : State.ReadyFor { ready with cap := some 8, lenw := some 4 } ([1, 2, 3] : List Byte).length :=
  (cbcRefusal_eq_none _ _).1 (by decide)

theorem witness_CbcDecCompletes : State.ReadyFor { ready with cap := some 8, lenw := some 4 } (List.replicate 8 (0 : Byte)).length :=
  (cbcRefusal_eq_none _ _).1 (by decide)

theorem witness_BlockStepsReachTheResult : 2 = numBlocks (List.replicate 9 (0 : Byte)).length := by decide

theorem witness_EncryptChaining :
    (ready.beginCbc .encrypt 1 2 [3]).held = some ⟨.encrypt, 1, 2, [3]⟩ ∧ ([7, 9] : List Block)[0 + 1]? = some 9 ∧
    ∃ c, (cbcBlocks finalAfterInit .encrypt 2 1 [7, 9])[0]? = some c :=
  ⟨rfl, rfl, _, rfl⟩

theorem witness_DecryptChaining :
    (ready.beginCbc .decrypt 1 2 [3]).held = some ⟨.decrypt, 1, 2, [3]⟩ ∧ ([7, 9] : List Block)[0]? = some 7 ∧
    ([7, 9] : List Block)[0 + 1]? = some 9 := by decide

theorem witness_InputIsCutIntoBlocks : 1 < numBlocks (List.replicate 9 (0 : Byte)).length := by decide

theorem witness_OneBlockIsTheRawTransform : State.ReadyFor { ready with cap := some 8 } 8 :=
  (cbcRefusal_eq_none _ _).1 (by decide)

theorem witness_RoundTripGivesThePaddedInput :
    ready.ReadyFor ([1, 2, 3] : List Byte).length ∧ ready.LengthFits (lenOf ([1, 2, 3] : List Byte).length) ∧
    InverseOfIP ready.final :=
  ⟨ready_for _, (ready_for _).length_fits, ready_final_inverse⟩

theorem witness_RoundTripInTheOtherOrder :
    ready.ReadyFor (List.replicate 8 (1 : Byte)).length ∧ (List.replicate 8 (1 : Byte)).length % 8 = 0 ∧
    InverseOfIP ready.final :=
  ⟨ready_for _, rfl, ready_final_inverse⟩

theorem witness_ChainContinuesOverTwoOperations :
    List.replicate 8 (1 : Byte) ≠ [] ∧ (List.replicate 8 (1 : Byte)).length % 8 = 0 := by decide

theorem witness_EncryptDifferenceIsCarriedAlong :
    InverseOfIP finalAfterInit ∧ (0 : Block) ≠ 1 ∧
    ∃ c, (cbcBlocks finalAfterInit .encrypt 2 1 ([7] ++ 0 :: [9]))[2]? = some c :=
  ⟨ready_final_inverse, by decide, _, rfl⟩

theorem witness_DecryptDifferenceStopsAfterOneBlock :
    InverseOfIP finalAfterInit ∧ (0 : Block) ≠ 1 ∧
    1 + 2 < (cbcBlocks finalAfterInit .decrypt 2 1 ([7] ++ 0 :: [9, 11])).length :=
  ⟨ready_final_inverse, by decide, by rw [cbcBlocks_length]; decide⟩

theorem witness_IvDifference :
    InverseOfIP finalAfterInit ∧ (1 : Block) ≠ 2 ∧
    (∃ c, (cbcBlocks finalAfterInit .encrypt 3 1 [7, 9])[1]? = some c) ∧ 1 < ([7, 9] : List Block).length :=
  ⟨ready_final_inverse, by decide, ⟨_, rfl⟩, by decide⟩

theorem witness_CbcBeforeInitIsRefused :
    (State.reset.present ⟨.x 0b10#2 1 2 0 [], none⟩).pending = [⟨.x 0b10#2 1 2 0 [], none⟩] ∧
    (State.reset.present ⟨.x 0b10#2 1 2 0 [], none⟩).initDone = false ∧
    decode (.x 0b10#2 1 2 0 []) = .ok (.cbcEnc 1 2 []) ∧ decode (.x 0b11#2 1 2 0 []) = .ok (.cbcDec 1 2 []) := by decide

/-- A buffer one byte short of `LEN(9) = 16`, with a finite LENW that takes the length; both directions. -/
theorem witness_ShortBufferIsRefused :
    let din : List Byte := List.replicate 9 7
    let s : State := { ready with lenw := some 5, pending := [⟨.x 0b10#2 1 2 9 din, some 15⟩] }
    s.pending = [⟨.x 0b10#2 1 2 9 din, some 15⟩] ∧ s.initDone = true ∧ s.LengthFits din.length ∧ 15 < lenOf din.length ∧
    decode (.x 0b10#2 1 2 9 din) = .ok (.cbcEnc 1 2 din) ∧ decode (.x 0b11#2 1 2 9 din) = .ok (.cbcDec 1 2 din) ∧
    refusal (exec (.cbcEnc 1 2 din) { s with cap := some 15 }) = some .outputBufferTooSmall ∧
    refusal (exec (.cbcDec 1 2 din) { s with cap := some 15 }) = some .outputBufferTooSmall :=
  ⟨rfl, rfl, (lengthTooWide_eq_false (some 5) 9).1 (by decide), by decide, by decide, by decide, by decide, by decide⟩

theorem witness_WideLengthIsRefused :
    (Instr.len 256).wellFormed ({ ready with lenw := some 8 } : State).lenw = false ∧ ready.lenw = none := by decide

theorem witness_EveryOperationAnswers : ready.lenw = none ∧ ready.cap = none ∧ ready.initDone = true := by decide

theorem witness_StepKeepsTheInvariant :
    State.Inv (ready.present ⟨.z 0b00#2, none⟩) ∧ ∃ t, step (ready.present ⟨.z 0b00#2, none⟩) = .next t :=
  ⟨⟨fun _ => ready_final_inverse, rfl, rfl, fun _ h => nomatch h⟩, _, rfl⟩

theorem witness_InitDoneIsNeverCleared :
    (∃ t, exec .init State.reset = .next t) ∧ (∃ t, step ready = .next t) ∧ ready.initDone = true ∧
    (∃ t, exec (.len 1) ready = .next t) ∧ Instr.len 1 ≠ .init ∧ State.reset.initDone = false :=
  ⟨⟨_, rfl⟩, ⟨_, rfl⟩, rfl, ⟨_, rfl⟩, by decide, rfl⟩

theorem witness_FinalIsWrittenOnce :
    (∃ t, exec (.len 1) ready = .next t) ∧ Instr.len 1 ≠ .init ∧ ready.Inv ∧ ready.initDone = true ∧
    (∃ t, step ready = .next t) ∧ ({ state := ready, marks := [] } : Session).state.Inv :=
  ⟨⟨_, rfl⟩, by decide, ready_inv, rfl, ⟨_, rfl⟩, ready_inv⟩

/-- Two states that differ in a working register and in what was answered before. -/
theorem witness_ResponseIsAFunctionOfTheOperands :
    InverseOfIP ready.final ∧ InverseOfIP ({ ready with chain := 5, responses := [.z] } : State).final ∧
    ready.initDone = true ∧ (∃ t, exec (.cbcEnc 1 2 []) ready = .next t) :=
  ⟨ready_final_inverse, ready_final_inverse, rfl, _, rfl⟩

theorem witness_WorkingRegistersCannotBeObserved :
    ready.initDone = ({ ready with chain := 5 } : State).initDone ∧
    ready.final = ({ ready with chain := 5 } : State).final ∧ (∃ t, exec (.cbcEnc 1 2 []) ready = .next t) :=
  ⟨rfl, rfl, _, rfl⟩

end Sys2Proof.Tests
end

section
/-! PROOFS. The facts about INIT's table, the key schedule, the block steps and the step itself that the statements on the
life of the state need, and then those statements. -/

namespace Sys2Proof.Machine

/-! ### FINAL: the derived table is the inverse of IP, and the only one (R50 to R52) -/

/-- The listed `FINAL` is an inverse of `IP` (R52, R55). -/
theorem finalAfterInit_inverseOfIP : InverseOfIP finalAfterInit := by decide +kernel

/-- No entry of `IP` repeats, because `IP` has an inverse table. -/
theorem IP_injective : Function.Injective fun i : Fin 64 => IP[i] := by
  intro i j hij
  have hget : finalAfterInit[IP[i]] = finalAfterInit[IP[j]] := congrArg (fun n : Fin 64 => finalAfterInit[n]) hij
  rwa [finalAfterInit_inverseOfIP i, finalAfterInit_inverseOfIP j] at hget

/-- The inverse of `IP` is unique: every index is an entry of `IP` (R52). -/
theorem InverseOfIP.unique {t u : Table 64} (ht : InverseOfIP t) (hu : InverseOfIP u) : t = u := by
  refine Vector.ext fun j hj => ?_
  obtain ⟨i, hi⟩ := Finite.surjective_of_injective IP_injective ⟨j, hj⟩
  have htu : t[IP[i]] = u[IP[i]] := (ht i).trans (hu i).symm
  simpa [show IP[i] = ⟨j, hj⟩ from hi] using htu

/-- The writes of R50 for a list of indices: an entry whose index is in the list holds it, another is as it was. -/
theorem deriveFinal_loop_getElem (is : List (Fin 64)) (t : Table 64) (j : Fin 64) :
    (is.foldl (fun t i => t.set IP[i].val i IP[i].isLt) t)[IP[j]] = if j ∈ is then j else t[IP[j]] := by
  induction is generalizing t with
  | nil => simp
  | cons i is ih =>
    rw [List.foldl_cons, ih]
    by_cases hji : j = i
    · subst hji; simp
    · have hne : IP[i].val ≠ IP[j].val := fun h => hji (IP_injective (Fin.ext h.symm))
      have hkept : (t.set IP[i].val i IP[i].isLt)[IP[j]] = t[IP[j]] := Vector.getElem_set_ne _ _ hne
      rw [hkept]; simp [hji]

/-- INIT's writes leave the inverse of `IP`, whatever `FINAL` held (R52). -/
theorem deriveFinal_inverseOfIP (old : Table 64) : InverseOfIP (deriveFinal old) := by
  intro i
  rw [deriveFinal, deriveFinal_loop_getElem, if_pos (List.mem_finRange i)]

/-- INIT's writes change nothing in a table that is the inverse already (R51). -/
theorem deriveFinal_of_inverseOfIP {t : Table 64} (h : InverseOfIP t) : deriveFinal t = t :=
  (deriveFinal_inverseOfIP t).unique h

/-! ### The key schedule forgets what the subkey registers held (R75) -/

/-- Rounds of the schedule over equal half-keys agree on the half-keys, and on every subkey that they write or that was
equal before. -/
theorem keyRound_loop_congr (is : List (Fin 16)) {k k' : KeyRegs} (hc : k.c = k'.c) (hd : k.d = k'.d) :
    (is.foldl keyRound k).c = (is.foldl keyRound k').c ∧ (is.foldl keyRound k).d = (is.foldl keyRound k').d ∧
    ∀ j : Fin 16, j ∈ is ∨ k.subkey[j] = k'.subkey[j] →
      (is.foldl keyRound k).subkey[j] = (is.foldl keyRound k').subkey[j] := by
  induction is generalizing k k' with
  | nil => exact ⟨hc, hd, fun j hj => hj.resolve_left (List.not_mem_nil)⟩
  | cons i is ih =>
    obtain ⟨ihc, ihd, ihs⟩ := ih (k := keyRound k i) (k' := keyRound k' i)
      (by simp [keyRound, hc]) (by simp [keyRound, hd])
    refine ⟨ihc, ihd, fun j hj => ihs j ?_⟩
    by_cases hji : j = i
    · subst hji; exact .inr (by simp [keyRound, hc, hd])
    · have hne : i.val ≠ j.val := fun h => hji (Fin.ext h.symm)
      exact hj.imp (fun h => (List.mem_cons.1 h).resolve_left hji)
        (fun h => by simpa [keyRound, Vector.getElem_set_ne, hne] using h)

/-- All sixteen registers are written: the schedule into any registers gives the subkeys of the key (R75). -/
theorem keySchedule_subkey (old : Vector Subkey 16) (key : Key) : (keySchedule old key).subkey = subkeysOf key := by
  refine Vector.ext fun j hj => ?_
  obtain ⟨-, -, hs⟩ := keyRound_loop_congr (List.finRange 16)
    (k := ⟨pc1Left key, pc1Right key, old⟩) (k' := ⟨pc1Left key, pc1Right key, Vector.replicate 16 0⟩) rfl rfl
  exact hs ⟨j, hj⟩ (.inl (List.mem_finRange _))

/-! ### The block steps compute the chained output (R90 to R93) -/

/-- The transform over the registers gives DESBLK of the block, whatever the registers held (R83). -/
theorem State.transformBlock_result (s : State) (block : Block) (key : Key) (dir : Direction) :
    (s.transformBlock block key dir).blockResult = desBlock s.final block key dir := by
  simp [State.transformBlock, State.blockResult, desBlock, keySchedule_subkey]

section
variable {s : State} {h : Held} (hs : s.held = some h)
include hs

theorem State.blockStep_dout : s.blockStep.dout = memWrite s.dout (8 * s.blockIx)
    (cbcBlock s.final h.dir h.key s.chain (blockAt h.din s.blockIx)) := by
  simp [State.blockStep, hs, State.transformBlock_result, cbcBlock]

theorem State.blockStep_chain : s.blockStep.chain = chainNext h.dir (blockAt h.din s.blockIx)
    (cbcBlock s.final h.dir h.key s.chain (blockAt h.din s.blockIx)) := by
  simp [State.blockStep, hs, State.transformBlock_result, cbcBlock]

theorem State.blockStep_blockIx : s.blockStep.blockIx = s.blockIx + 1 := by
  simp [State.blockStep, hs]

/-- `k` block steps append to `DOUT` the `k` chained blocks from block `n` on. -/
theorem State.runBlocks_dout (k : Nat) (hd : s.dout.length = 8 * s.blockIx) :
    (State.runBlocks k s).dout = s.dout ++ (cbcBlocks s.final h.dir h.key s.chain
      ((List.range' s.blockIx k).map (blockAt h.din))).flatMap unpack := by
  induction k generalizing s with
  | zero => simp [State.runBlocks_zero]
  | succ k ih =>
    have hdout := State.blockStep_dout hs
    rw [← hd, memWrite_at_end] at hdout
    rw [State.runBlocks_succ, ih (by simpa using hs) (by simp [hdout, State.blockStep_blockIx hs, hd]; omega),
      List.range'_succ, List.map_cons, cbcBlocks_cons, List.flatMap_cons, hdout, State.blockStep_chain hs,
      State.blockStep_blockIx hs, State.blockStep_final, List.append_assoc]

end

/-- After all `NB` block steps of an operation `DOUT` is its result (R90, R93). -/
theorem State.runBlocks_beginCbc_dout (s : State) (dir : Direction) (iv : Block) (key : Key) (din : List Byte) :
    (State.runBlocks (numBlocks din.length) (s.beginCbc dir iv key din)).dout = cbcOutput s.final dir iv key din := by
  rw [State.runBlocks_dout (State.beginCbc_held ..) _ rfl]
  simp [cbcOutput, inputBlocks, List.range_eq_range']

/-- The output has `LEN(L)` bytes (R90). -/
theorem cbcOutput_length (final : Table 64) (dir : Direction) (iv : Block) (key : Key) (din : List Byte) :
    (cbcOutput final dir iv key din).length = lenOf din.length := by
  simp [cbcOutput, List.length_flatMap, lenOf_eq_numBlocks, Nat.mul_comm]

theorem lenOf_mod_eight (n : Nat) : lenOf n % 8 = 0 := Nat.mul_mod_left ..

/-! ### What an operation answers, and when -/

theorem exec_init (s : State) : exec .init s = .next (s.writeFinal.setInitDone.respond .z) := rfl

theorem exec_len (n : Nat) (s : State) : exec (.len n) s = execLen n s := rfl

theorem exec_cbcEnc (iv : Block) (key : Key) (din : List Byte) (s : State) :
    exec (.cbcEnc iv key din) s = cbcOperation .encrypt iv key din s := rfl

theorem exec_cbcDec (iv : Block) (key : Key) (din : List Byte) (s : State) :
    exec (.cbcDec iv key din) s = cbcOperation .decrypt iv key din s := rfl

/-- The response of an operation as a function of its operands and `FINAL` (R38, R87, R90). -/
def answer (final : Table 64) : Instr → Response
  | .init => .z
  | .len n => .n (lenOf n)
  | .cbcEnc iv key din => .x (cbcOutput final .encrypt iv key din)
  | .cbcDec iv key din => .x (cbcOutput final .decrypt iv key din)

theorem answer_wellSized (final : Table 64) (i : Instr) : Response.wellSized (answer final i) = true := by
  cases i <;> simp [answer, Response.wellSized, cbcOutput_length, lenOf_mod_eight]

/-- An operation that completes gives one response, its `answer`. -/
theorem exec_responses {i : Instr} {s s' : State} (h : exec i s = .next s') :
    s'.responses = s.responses ++ [answer s.final i] := by
  obtain ⟨rfl, rfl⟩ | ⟨n, rfl, rfl⟩ | ⟨dir, iv, key, din, hi, -, rfl⟩ := exec_next h
  · rfl
  · rfl
  · obtain ⟨rfl, rfl⟩ | ⟨rfl, rfl⟩ := hi <;> simp [answer, State.runBlocks_beginCbc_dout]

/-- With the flag at 0 a CBC operation is refused at every length (R102). -/
theorem cbcOperation_before_init {s : State} (h : s.initDone = false) (dir : Direction) (iv : Block) (key : Key)
    (din : List Byte) : cbcOperation dir iv key din s = .refused .useBeforeInit :=
  (cbcOperation_refused ..).2 (by simp [State.cbcRefusal, State.usedBeforeInit, h])

theorem exec_cbc_before_init {s : State} (h : s.initDone = false) (iv : Block) (key : Key) (din : List Byte) :
    exec (.cbcEnc iv key din) s = .refused .useBeforeInit ∧ exec (.cbcDec iv key din) s = .refused .useBeforeInit :=
  ⟨exec_cbcEnc .. ▸ cbcOperation_before_init h .., exec_cbcDec .. ▸ cbcOperation_before_init h ..⟩

/-- An operation that completes before INIT has an answer that does not read `FINAL` (R102). -/
theorem answer_before_init {i : Instr} {s s' : State} (h : exec i s = .next s') (hs : s.initDone = false)
    (t u : Table 64) : answer t i = answer u i := by
  cases i with
  | init => rfl
  | len n => rfl
  | cbcEnc iv key din => rw [(exec_cbc_before_init hs iv key din).1] at h; cases h
  | cbcDec iv key din => rw [(exec_cbc_before_init hs iv key din).2] at h; cases h

section
variable {s t : State} (hinit : s.initDone = t.initDone) (hlenw : s.lenw = t.lenw) (hcap : s.cap = t.cap)
include hinit hlenw hcap

theorem cbcRefusal_congr (n : Nat) : s.cbcRefusal n = t.cbcRefusal n := by
  simp [State.cbcRefusal, State.usedBeforeInit, hinit, hlenw, hcap]

theorem cbcOperation_completes_congr {dir : Direction} {iv : Block} {key : Key} {din : List Byte} {s' : State}
    (h : cbcOperation dir iv key din s = .next s') : ∃ t', cbcOperation dir iv key din t = .next t' := by
  obtain ⟨hnone, -⟩ := cbcOperation_next h
  rw [cbcRefusal_congr hinit hlenw hcap] at hnone
  exact ⟨_, by rw [cbcOperation, hnone]⟩

/-- Whether an operation completes depends on the flag, `LENW` and the buffer alone (R87, R102, R103). -/
theorem exec_completes_congr {i : Instr} {s' : State} (h : exec i s = .next s') : ∃ t', exec i t = .next t' := by
  cases i with
  | init => exact ⟨_, exec_init t⟩
  | len n =>
    rw [exec_len, execLen, hlenw] at h
    rw [exec_len, execLen]
    split at h
    · cases h
    · rw [if_neg ‹_›]; exact ⟨_, rfl⟩
  | cbcEnc iv key din => exact cbcOperation_completes_congr hinit hlenw hcap h
  | cbcDec iv key din => exact cbcOperation_completes_congr hinit hlenw hcap h

/-- Two states that agree on the flag, `LENW` and the buffer give one response wherever the answers agree: no other field is
observed (R22). -/
theorem exec_same_response {i : Instr} {s' : State} (hans : answer s.final i = answer t.final i)
    (h : exec i s = .next s') :
    ∃ t' r, exec i t = .next t' ∧ s'.responses = s.responses ++ [r] ∧ t'.responses = t.responses ++ [r] := by
  obtain ⟨t', ht⟩ := exec_completes_congr hinit hlenw hcap h
  exact ⟨t', answer s.final i, ht, exec_responses h, hans ▸ exec_responses ht⟩

end

/-! ### What an operation keeps -/

section
variable {i : Instr} {s s' : State} (h : exec i s = .next s')
include h

/-- Only INIT writes the persistent state: `FINAL` and the flag (R10, R15, R16). -/
theorem exec_keeps_persistent (hi : i ≠ .init) : s'.final = s.final ∧ s'.initDone = s.initDone := by
  obtain ⟨rfl, -⟩ | ⟨n, -, rfl⟩ | ⟨dir, iv, key, din, -, -, rfl⟩ := exec_next h
  · exact absurd rfl hi
  · exact ⟨rfl, rfl⟩
  · simp

/-- No operation clears the flag (R16). -/
theorem exec_keeps_initDone (hs : s.initDone = true) : s'.initDone = true := by
  by_cases hi : i = .init
  · subst hi; cases h; rfl
  · rw [(exec_keeps_persistent h hi).2, hs]

/-- No operation changes a `FINAL` that is the inverse of `IP`: INIT writes the values it holds (R51). -/
theorem exec_keeps_final (hs : InverseOfIP s.final) : s'.final = s.final := by
  by_cases hi : i = .init
  · subst hi; cases h; exact deriveFinal_of_inverseOfIP hs
  · exact (exec_keeps_persistent h hi).1

/-- No operand is held and no output is under way after an operation that found none (R19, R90). -/
theorem exec_keeps_idle (hheld : s.held = none) (hdout : s.dout = []) : s'.held = none ∧ s'.dout = [] := by
  obtain ⟨-, rfl⟩ | ⟨n, -, rfl⟩ | ⟨dir, iv, key, din, -, -, rfl⟩ := exec_next h
  · exact ⟨hheld, hdout⟩
  · exact ⟨hheld, hdout⟩
  · exact ⟨rfl, rfl⟩

/-- Where the flag is 1 after an operation `FINAL` is the inverse of `IP`, if it was so before (R52). -/
theorem exec_keeps_final_inverse (hs : s.initDone = true → InverseOfIP s.final) (hdone : s'.initDone = true) :
    InverseOfIP s'.final := by
  by_cases hi : i = .init
  · subst hi; cases h; exact deriveFinal_inverseOfIP s.final
  · obtain ⟨hfinal, hflag⟩ := exec_keeps_persistent h hi
    exact hfinal ▸ hs (hflag ▸ hdone)

/-- Every operation that completes keeps the invariant (R116). -/
theorem exec_keeps_inv (hs : s.Inv) : s'.Inv := by
  obtain ⟨hfinal, hheld, hdout, hsized⟩ := hs
  obtain ⟨hheld', hdout'⟩ := exec_keeps_idle h hheld hdout
  refine ⟨exec_keeps_final_inverse h hfinal, hheld', hdout', fun resp hresp => ?_⟩
  rw [exec_responses h, List.mem_append, List.mem_singleton] at hresp
  obtain hold | rfl := hresp
  · exact hsized resp hold
  · exact answer_wellSized s.final i

end

/-! ### From operations to steps and sessions -/

section
variable {P : State → Prop} (hhost : ∀ s q c, P s → P { s with pending := q, cap := c })
  (hexec : ∀ i s s', P s → exec i s = .next s' → P s')
include hhost hexec

/-- What every operation keeps, and what does not speak of the host's side, every step keeps. -/
theorem step_keeps {s s' : State} (hs : P s) (h : step s = .next s') : P s' := by
  obtain ⟨-, rfl⟩ | ⟨p, rest, i, -, -, hi⟩ := step_next h
  · exact hs
  · exact hexec i _ _ (hhost s rest p.cap hs) hi

/-- So does every operation of a session, refused or not (R106). -/
theorem Session.serve_keeps {x : Session} (hx : P x.state) : P x.serve.state := by
  cases h : step x.state with
  | next s => rw [Session.serve_next h]; exact step_keeps hhost hexec hx h
  | fault f => exact nomatch f
  | refused r => rw [Session.serve_refused h]; exact hhost x.state _ x.state.cap hx

theorem Session.run_keeps (k : Nat) {x : Session} (hx : P x.state) : P (Session.run k x).state := by
  induction k generalizing x with
  | zero => exact hx
  | succ k ih => exact ih (Session.serve_keeps hhost hexec hx)

end

/-- The invariant does not speak of what the host presents. -/
theorem State.Inv.host_change {s : State} (hs : s.Inv) (q : List Presented) (c : Option Nat) :
    State.Inv { s with pending := q, cap := c } :=
  ⟨hs.final_inverse, hs.nothing_held, hs.no_output_under_way, hs.responses_sized⟩

/-- INIT has run and left `FINAL` as the table `t`. -/
structure State.InitialisedWith (t : Table 64) (s : State) : Prop where
  inverse : InverseOfIP t
  final_eq : s.final = t
  initialised : s.initDone = true

/-- The table in use stays the same over every operation. -/
theorem exec_keeps_initialisedWith {t : Table 64} (i : Instr) (s s' : State) (hs : s.InitialisedWith t)
    (h : exec i s = .next s') : s'.InitialisedWith t := by
  obtain ⟨ht, rfl, hdone⟩ := hs
  exact ⟨ht, exec_keeps_final h ht, exec_keeps_initDone h hdone⟩

theorem State.InitialisedWith.host_change {t : Table 64} (s : State) (q : List Presented) (c : Option Nat)
    (hs : s.InitialisedWith t) : State.InitialisedWith t { s with pending := q, cap := c } :=
  ⟨hs.inverse, hs.final_eq, hs.initialised⟩

theorem State.Inv.initialisedWith_final {s : State} (hs : s.Inv) (hdone : s.initDone = true) :
    s.InitialisedWith s.final :=
  ⟨hs.final_inverse hdone, rfl, hdone⟩

/-! ### The statements on the life of the state -/

/-- Settles O50: every operation keeps the invariant, INIT by the table it derives and a CBC operation by the length of its
output, and what the host presents is no part of it. -/
theorem stepKeepsTheInvariant : Obligations.StepKeepsTheInvariant := by
  intro s t hs h
  exact step_keeps (fun _ q c hs => hs.host_change q c) (fun _ _ _ hs h => exec_keeps_inv h hs) hs h

/-- Settles O51: by the ways an operation can complete, and by the refusal that comes before any other. -/
theorem initDoneIsNeverCleared : Obligations.InitDoneIsNeverCleared := by
  refine ⟨rfl, fun s t h => ?_, fun s t h hs => ?_, fun i s t h hi => (exec_keeps_persistent h hi).2,
    fun iv key din s hs => exec_cbc_before_init hs iv key din⟩
  · cases h; rfl
  · exact step_keeps (P := fun s => s.initDone = true) (fun _ _ _ hs => hs)
      (fun _ _ _ hs h => exec_keeps_initDone h hs) hs h

/-- Settles O52: after INIT `FINAL` is the inverse of `IP`, which a further INIT writes again unchanged; over a session by
induction. -/
theorem finalIsWrittenOnce : Obligations.FinalIsWrittenOnce := by
  refine ⟨fun i s t h hi => (exec_keeps_persistent h hi).1, fun s t hs hdone h => ?_, fun k x hx hdone => ?_⟩
  · exact (step_keeps State.InitialisedWith.host_change exec_keeps_initialisedWith
      (hs.initialisedWith_final hdone) h).final_eq
  · exact (Session.run_keeps State.InitialisedWith.host_change exec_keeps_initialisedWith k
      (hx.initialisedWith_final hdone)).final_eq

/-- Settles O53: the inverse of `IP` is unique, so the two states hold the same `FINAL`, and nothing else is observed. -/
theorem responseIsAFunctionOfTheOperands : Obligations.ResponseIsAFunctionOfTheOperands := by
  intro i s t s' hs ht hsdone htdone hlenw hcap h
  exact exec_same_response (hsdone.trans htdone.symm) hlenw hcap (by rw [hs.unique ht]) h

/-- Settles O54: after INIT the two states hold the same `FINAL`; before it no operation that completes reads it. -/
theorem workingRegistersCannotBeObserved : Obligations.WorkingRegistersCannotBeObserved := by
  intro i s t s' hinit hfinal hlenw hcap h
  refine exec_same_response hinit hlenw hcap ?_ h
  cases hdone : s.initDone with
  | true => rw [hfinal hdone]
  | false => exact answer_before_init h hdone s.final t.final

/-- Settles O48: the fields as reset gives them; LENW is unbounded there, so LEN is not refused, and the flag is 0, so a CBC
operation is. -/
theorem resetState : Obligations.ResetState :=
  ⟨rfl, rfl, rfl, rfl, ⟨_, exec_init _⟩, fun _ => ⟨_, rfl⟩, exec_cbc_before_init rfl⟩

/-- Settles O49: the flag is 0 at reset, nothing is held and nothing has been answered. -/
theorem resetMeetsTheInvariant : Obligations.ResetMeetsTheInvariant :=
  ⟨(nomatch ·), rfl, rfl, fun _ hresp => nomatch hresp⟩

end Sys2Proof.Machine
end

section
/-! PROOFS. What PACK, UNPACK, MemRead, MemWrite and the cutting into blocks do, byte by byte, and what a step does with
what is presented; then the statements on bytes and requests (20_memory.md). -/

namespace Sys2Proof.Machine

/-! ### PACK and UNPACK (R25, R26) -/

/-- Byte `k` of a packed block is byte `k` of the list, or zero where there is none (R25). -/
theorem pack_getLsbD (bs : List Byte) (j : Nat) :
    (pack bs).getLsbD j = (decide (j < 64) && (bs[j / 8]?.getD 0).getLsbD (j % 8)) := by
  induction bs generalizing j with
  | nil => simp
  | cons b bs ih =>
    rw [pack_cons, BitVec.getLsbD_or, BitVec.getLsbD_setWidth, BitVec.getLsbD_shiftLeft, ih]
    by_cases hj : j < 8
    · simp [hj, Nat.div_eq_of_lt hj, Nat.mod_eq_of_lt hj]
    · have hdiv : j / 8 = (j - 8) / 8 + 1 := by omega
      have hmod : (j - 8) % 8 = j % 8 := by omega
      have hlt : j < 64 → j - 8 < 64 := by omega
      rw [BitVec.getLsbD_of_ge b j (by omega), hdiv, hmod, List.getElem?_cons_succ]
      by_cases h64 : j < 64 <;> simp [h64, hj, hlt]

/-- Byte `k` of an unpacked block is bits `[8k+7 : 8k]` (R26). -/
theorem unpack_getElem (v : Block) (k : Nat) (hk : k < (unpack v).length) :
    (unpack v)[k] = v.extractLsb' (8 * k) 8 := by
  simp [unpack]

theorem unpack_getElem?_of_lt (v : Block) {k : Nat} (hk : k < 8) : (unpack v)[k]? = some (v.extractLsb' (8 * k) 8) := by
  rw [List.getElem?_eq_getElem (by simpa using hk), unpack_getElem]

@[simp] theorem pack_unpack (v : Block) : pack (unpack v) = v := by
  refine BitVec.eq_of_getLsbD_eq fun j hj => ?_
  rw [pack_getLsbD, unpack_getElem?_of_lt v (by omega), Option.getD_some, BitVec.getLsbD_extractLsb', Nat.div_add_mod]
  simp [hj, Nat.mod_lt]

theorem unpack_pack {bs : List Byte} (hbs : bs.length = 8) : unpack (pack bs) = bs := by
  refine List.ext_getElem hbs.symm fun k _ hk => ?_
  rw [unpack_getElem]
  refine BitVec.eq_of_getLsbD_eq fun j hj => ?_
  have hdiv : (8 * k + j) / 8 = k := by omega
  have hmod : (8 * k + j) % 8 = j := by omega
  have hlt : 8 * k + j < 64 := by omega
  rw [BitVec.getLsbD_extractLsb', pack_getLsbD, hdiv, hmod, List.getElem?_eq_getElem hk]
  simp [hj, hlt]

/-! ### MemRead and MemWrite (R25, R26, R29) -/

/-- MemRead is PACK of the bytes at its offsets: bits from byte `n` on are zero (R25). -/
theorem memRead_getLsbD (din : List Byte) (addr n j : Nat) :
    (memRead din addr n).getLsbD j =
      (decide (j < 64 ∧ j / 8 < n) && (din[addr + j / 8]?.getD 0).getLsbD (j % 8)) := by
  rw [memRead, pack_getLsbD, List.getElem?_take]
  by_cases hn : j / 8 < n <;> simp [hn]

/-- The 8 bytes at the offsets of a write are those of its block (R26). -/
theorem memRead_memWrite {dout : List Byte} {addr : Nat} (haddr : addr ≤ dout.length) (v : Block) :
    memRead (memWrite dout addr v) addr 8 = v := by
  have hbefore : (dout.take addr).length = addr := List.length_take_of_le haddr
  rw [memRead, memWrite, List.append_assoc, List.drop_left' hbefore, List.take_left' (unpack_length v), pack_unpack]

/-- A write leaves every byte outside its 8 offsets (R26). -/
theorem memWrite_getElem?_outside {dout : List Byte} {addr a : Nat} (haddr : addr ≤ dout.length) (v : Block)
    (ha : a < addr ∨ addr + 8 ≤ a) : (memWrite dout addr v)[a]? = dout[a]? := by
  have hwritten : (dout.take addr ++ unpack v).length = addr + 8 := by simp [haddr]
  obtain hbelow | habove := ha
  · rw [memWrite, List.append_assoc, List.getElem?_append_left (by rw [List.length_take_of_le haddr]; exact hbelow),
      List.getElem?_take_of_lt hbelow]
  · rw [memWrite, List.getElem?_append_right (by omega), hwritten, List.getElem?_drop, Nat.add_sub_cancel' habove]

/-! ### Cutting into blocks undoes the concatenation of unpacked blocks (R26, R88) -/

theorem numBlocks_add_eight (n : Nat) : numBlocks (n + 8) = numBlocks n + 1 := by
  rw [numBlocks_eq, numBlocks_eq]; omega

theorem blockAt_unpack_append_zero (b : Block) (bs : List Byte) : blockAt (unpack b ++ bs) 0 = b := by
  rw [blockAt, if_pos (by simp), memRead, Nat.mul_zero, List.drop_zero, List.take_left' (unpack_length b), pack_unpack]

/-- The first block read, block `n + 1` is block `n` of what remains. -/
theorem blockAt_unpack_append_succ (b : Block) (bs : List Byte) (n : Nat) :
    blockAt (unpack b ++ bs) (n + 1) = blockAt bs n := by
  have hdrop : (unpack b ++ bs).drop (8 * (n + 1)) = bs.drop (8 * n) := by
    rw [Nat.mul_succ, Nat.add_comm, ← List.drop_drop, List.drop_left' (unpack_length b)]
  have hfull : 8 * (n + 1) + 8 ≤ (unpack b ++ bs).length ↔ 8 * n + 8 ≤ bs.length := by simp; omega
  have hmod : (unpack b ++ bs).length % 8 = bs.length % 8 := by simp
  simp only [blockAt, memRead, hdrop, hfull, hmod]

theorem inputBlocks_unpack_append (b : Block) (bs : List Byte) : inputBlocks (unpack b ++ bs) = b :: inputBlocks bs := by
  have hlen : (unpack b ++ bs).length = bs.length + 8 := by simp [Nat.add_comm]
  rw [inputBlocks, hlen, numBlocks_add_eight, List.range_succ_eq_map, List.map_cons, List.map_map,
    blockAt_unpack_append_zero, inputBlocks]
  simp [Function.comp_def, blockAt_unpack_append_succ]

/-- The blocks of a concatenation of unpacked blocks are these blocks. -/
theorem inputBlocks_flatMap_unpack (bs : List Block) : inputBlocks (bs.flatMap unpack) = bs := by
  induction bs with
  | nil => rfl
  | cons b bs ih => rw [List.flatMap_cons, inputBlocks_unpack_append, ih]

/-! ### What a step does with what is presented (R32) -/

section
variable {s : State}

theorem step_idle (h : s.pending = []) : step s = .next s := by rw [step, h]

variable {p : Presented} {rest : List Presented} (hp : s.pending = p :: rest)
include hp

theorem step_of_decode_ok {i : Instr} (h : decode p.command = .ok i) : step s = exec i (s.take p rest) := by
  simp only [step, hp, h]

theorem step_of_decode_error {why : Reject} (h : decode p.command = .error why) :
    step s = .refused (.malformedCommand why) := by
  simp only [step, hp, h]

end

/-! ### The statements on bytes and requests -/

/-- Settles O5: by the bits of PACK, for a list of bytes and for those that MemRead takes; 8 bytes end below bit 64. -/
theorem packIsLittleEndian : Obligations.PackIsLittleEndian := by
  refine ⟨fun bs j hbs => ?_, fun din addr n j hn hin => ?_⟩
  · rw [pack_getLsbD]
    split
    next h =>
      have hlt : j < 64 := by omega
      simp [hlt, h]
    next h => simp [List.getElem?_eq_none (Nat.le_of_not_lt h)]
  · rw [memRead_getLsbD]
    split
    next h =>
      obtain ⟨hjn, haddr⟩ := h
      have hlt : j < 64 := by omega
      simp [hlt, hjn, haddr]
    next h =>
      have hjn : ¬ j / 8 < n := by omega
      simp [hjn]

/-- Settles O6: UNPACK and PACK are inverse bit by bit, and a write is the bytes before it, its own 8 and those after. -/
theorem unpackInvertsPack : Obligations.UnpackInvertsPack := by
  refine ⟨fun v => ⟨rfl, pack_unpack v⟩, fun bs hbs => unpack_pack hbs, fun dout v => ?_, fun dout addr v haddr =>
    ⟨memRead_memWrite haddr v, fun a ha => memWrite_getElem?_outside haddr v ha⟩⟩
  rw [memWrite_at_end, List.length_append, unpack_length]

/-- Settles O36: the output is the concatenation of the unpacked chained blocks, which the cutting into blocks undoes. -/
theorem outputHasLenBytes : Obligations.OutputHasLenBytes := by
  intro t dir iv key din
  exact ⟨cbcOutput_length t dir iv key din, inputBlocks_flatMap_unpack _⟩

/-- Settles O1: by the three cases of the step, nothing presented, a command, a record that is none. -/
theorem stepRunsTheOperationPresentedFirst : Obligations.StepRunsTheOperationPresentedFirst := by
  intro s
  exact ⟨step_idle, fun p rest hp => ⟨fun i hi => step_of_decode_ok hp hi, fun why hw => step_of_decode_error hp hw⟩⟩

end Sys2Proof.Machine
end

section
/-! PROOFS. What the decoder answers for any record, and what a CBC operation on one block answers; then the statements on
the encoding (30_encoding.md). -/

namespace Sys2Proof

/-! ### The format an `op` calls for (R36, R38, R40) -/

/-- `op` has four codes (R36). -/
theorem op_cases (op : BitVec 2) : op = 0b00#2 ∨ op = 0b01#2 ∨ op = 0b10#2 ∨ op = 0b11#2 := by
  revert op; decide

theorem formatOf_eq_z {op : BitVec 2} : formatOf op = .z ↔ op = 0b00#2 := by revert op; decide

theorem formatOf_eq_n {op : BitVec 2} : formatOf op = .n ↔ op = 0b01#2 := by revert op; decide

theorem formatOf_eq_x {op : BitVec 2} : formatOf op = .x ↔ op = 0b10#2 ∨ op = 0b11#2 := by revert op; decide

/-! ### What the decoder answers (R38 to R41) -/

/-- Every `op` code is that of an operation (R40). -/
theorem exists_encode_op (op : BitVec 2) : ∃ i, (encode i).op = op := by
  obtain rfl | rfl | rfl | rfl := op_cases op
  · exact ⟨.init, rfl⟩
  · exact ⟨.len 0, rfl⟩
  · exact ⟨.cbcEnc 0 0 [], rfl⟩
  · exact ⟨.cbcDec 0 0 [], rfl⟩

@[simp] theorem decode_encode (i : Instr) : decode (encode i) = .ok i := by
  cases i with
  | init => rfl
  | len n => rfl
  | cbcEnc iv key din => simp [encode, Instr.opcode, decode, formatOf, directionOf]
  | cbcDec iv key din => simp [encode, Instr.opcode, decode, formatOf, directionOf]

theorem decode_of_format_ne {c : Command} (h : c.format ≠ formatOf c.op) : decode c = .error .formatMismatch := by
  cases c <;> exact if_neg (Ne.symm h)

theorem decode_of_length_ne {op : BitVec 2} (iv : Block) (key : Key) {len : Nat} {din : List Byte}
    (hformat : formatOf op = .x) (hlen : len ≠ din.length) :
    decode (.x op iv key len din) = .error .lengthMismatch := by
  rw [decode, if_pos hformat, if_neg hlen]

/-- A record whose fields are those its `op` calls for is an encoding, or its `L` is not the length of its data. -/
theorem eq_encode_or_length_ne {c : Command} (h : c.format = formatOf c.op) :
    (∃ i, c = encode i) ∨
      ∃ op iv key len din, c = .x op iv key len din ∧ formatOf op = .x ∧ len ≠ din.length := by
  cases c with
  | z op =>
    obtain rfl := formatOf_eq_z.1 h.symm
    exact .inl ⟨.init, rfl⟩
  | n op n =>
    obtain rfl := formatOf_eq_n.1 h.symm
    exact .inl ⟨.len n, rfl⟩
  | x op iv key len din =>
    by_cases hlen : len = din.length
    · subst hlen
      obtain rfl | rfl := formatOf_eq_x.1 h.symm
      · exact .inl ⟨.cbcEnc iv key din, rfl⟩
      · exact .inl ⟨.cbcDec iv key din, rfl⟩
    · exact .inr ⟨op, iv, key, len, din, rfl, h.symm, hlen⟩

/-- Whatever a record is, and what the decoder then answers: a wrong format, a wrong `L`, or an operation's encoding. -/
theorem decode_cases (c : Command) :
    (c.format ≠ formatOf c.op ∧ decode c = .error .formatMismatch) ∨
    ((∃ op iv key len din, c = .x op iv key len din ∧ formatOf op = .x ∧ len ≠ din.length) ∧
      decode c = .error .lengthMismatch) ∨
    ∃ i, c = encode i ∧ decode c = .ok i := by
  by_cases h : c.format = formatOf c.op
  · obtain ⟨i, rfl⟩ | ⟨op, iv, key, len, din, rfl, hformat, hlen⟩ := eq_encode_or_length_ne h
    · exact .inr (.inr ⟨i, rfl, decode_encode i⟩)
    · exact .inr (.inl ⟨⟨op, iv, key, len, din, rfl, hformat, hlen⟩, decode_of_length_ne iv key hformat hlen⟩)
  · exact .inl ⟨h, decode_of_format_ne h⟩

theorem decode_eq_ok {c : Command} {i : Instr} : decode c = .ok i ↔ c = encode i := by
  refine ⟨fun h => ?_, fun h => h ▸ decode_encode i⟩
  obtain ⟨-, hd⟩ | ⟨-, hd⟩ | ⟨j, hc, hd⟩ := decode_cases c
  · rw [hd] at h; cases h
  · rw [hd] at h; cases h
  · rw [hd] at h; cases h; exact hc

theorem decode_eq_formatMismatch {c : Command} : decode c = .error .formatMismatch ↔ c.format ≠ formatOf c.op := by
  refine ⟨fun h => ?_, decode_of_format_ne⟩
  obtain ⟨hne, -⟩ | ⟨-, hd⟩ | ⟨i, -, hd⟩ := decode_cases c
  · exact hne
  · rw [hd] at h; cases h
  · rw [hd] at h; cases h

theorem decode_eq_lengthMismatch {c : Command} : decode c = .error .lengthMismatch ↔
    ∃ op iv key len din, c = .x op iv key len din ∧ formatOf op = .x ∧ len ≠ din.length := by
  constructor
  · intro h
    obtain ⟨-, hd⟩ | ⟨hne, -⟩ | ⟨i, -, hd⟩ := decode_cases c
    · rw [hd] at h; cases h
    · exact hne
    · rw [hd] at h; cases h
  · rintro ⟨op, iv, key, len, din, rfl, hformat, hlen⟩
    exact decode_of_length_ne iv key hformat hlen

namespace Machine

/-! ### One block (R44, R94) -/

theorem cbcBlock_encrypt (final : Table 64) (key : Key) (chain b : Block) :
    cbcBlock final .encrypt key chain b = desBlock final b key .encrypt ^^^ chain := rfl

theorem cbcBlock_decrypt (final : Table 64) (key : Key) (chain b : Block) :
    cbcBlock final .decrypt key chain b = desBlock final (b ^^^ chain) key .decrypt := rfl

theorem cbcBlock_encrypt_zero (final : Table 64) (key : Key) (b : Block) :
    cbcBlock final .encrypt key 0 b = desBlock final b key .encrypt := BitVec.xor_zero

theorem cbcBlock_decrypt_zero (final : Table 64) (key : Key) (b : Block) :
    cbcBlock final .decrypt key 0 b = desBlock final b key .decrypt := by
  rw [cbcBlock_decrypt, show b ^^^ 0 = b from BitVec.xor_zero]

/-- The bytes of one block are one block of input, and the output is the first chained block. -/
theorem cbcOutput_unpack (final : Table 64) (dir : Direction) (iv : Block) (key : Key) (b : Block) :
    cbcOutput final dir iv key (unpack b) = unpack (cbcBlock final dir key iv b) := by
  have hblocks : inputBlocks (unpack b) = [b] := by simpa using inputBlocks_flatMap_unpack [b]
  rw [cbcOutput, hblocks, cbcBlocks_cons, cbcBlocks_nil, List.flatMap_singleton]

/-- In a state that is ready a CBC operation ends as its block steps leave it (R90, R93). -/
theorem cbcOperation_of_readyFor {s : State} {din : List Byte} (h : s.ReadyFor din.length) (dir : Direction) (iv : Block)
    (key : Key) : cbcOperation dir iv key din s =
      .next (State.runBlocks (numBlocks din.length) (s.beginCbc dir iv key din)).endCbc := by
  rw [cbcOperation, (cbcRefusal_eq_none s din.length).2 h]

/-- A CBC operation on the bytes of one block answers that block's output block (R94). -/
theorem cbcOperation_oneBlock {s : State} (h : s.ReadyFor 8) (dir : Direction) (iv : Block) (key : Key) (b : Block) :
    ∃ t, cbcOperation dir iv key (unpack b) s = .next t ∧
      t.responses = s.responses ++ [.x (unpack (cbcBlock s.final dir key iv b))] := by
  refine ⟨_, cbcOperation_of_readyFor (by rwa [unpack_length]) dir iv key, ?_⟩
  rw [State.endCbc_responses, State.runBlocks_beginCbc_dout, cbcOutput_unpack, State.runBlocks_responses,
    State.beginCbc_responses]

/-! ### The statements on the encoding -/

/-- Settles O3: by what the decoder answers for any record, and for an encoding. -/
theorem decodeAndEncodeAgree : Obligations.DecodeAndEncodeAgree :=
  fun _ _ => decode_eq_ok

/-- Settles O4: every `op` is that of an encoding, which decodes; and the decoder rejects in two cases only. -/
theorem onlyRecordsThatAreNoCommandAreRejected : Obligations.OnlyRecordsThatAreNoCommandAreRejected := by
  refine ⟨fun op => ?_, fun c => ⟨decode_eq_formatMismatch, decode_eq_lengthMismatch⟩⟩
  obtain ⟨i, hi⟩ := exists_encode_op op
  exact ⟨i, hi, decode_encode i⟩

/-- Settles O37: one block of input gives the first chained block alone, and the XOR with a zero `iv` changes nothing. -/
theorem oneBlockIsTheRawTransform : Obligations.OneBlockIsTheRawTransform := by
  intro iv key b s hs
  have henc := cbcOperation_oneBlock hs .encrypt 0 key b
  have hdec := cbcOperation_oneBlock hs .decrypt 0 key b
  rw [cbcBlock_encrypt_zero] at henc
  rw [cbcBlock_decrypt_zero] at hdec
  exact ⟨henc, hdec, cbcOperation_oneBlock hs .encrypt iv key b, cbcOperation_oneBlock hs .decrypt iv key b⟩

/-- Settles O2: the four records are the encodings of the four operations, and an encoding decodes. -/
theorem commandWordsDecode : Obligations.CommandWordsDecode :=
  ⟨decode_encode .init, fun n => decode_encode (.len n), fun iv key din => decode_encode (.cbcEnc iv key din),
    fun iv key din => decode_encode (.cbcDec iv key din)⟩

end Machine

end Sys2Proof
end

section
/-! PROOFS. The transposition engine seen through GETBIT: what each primitive does to one bit, the laws of TRANSPOSE and of
inverse tables, and what INIT leaves; then the statements on the engine and on INIT (40_transposition_engine.md). -/

namespace Sys2Proof.Machine

/-! ### GETBIT and SETBIT (R45, R46) -/

theorem getBit_eq_iff {v w : Block} {i k : BitIndex} : getBit v i = getBit w k ↔ v.getLsbD i.val = w.getLsbD k.val := by
  rw [← getBit_getLsbD, ← getBit_getLsbD]
  refine ⟨fun h => by rw [h], fun h => BitVec.eq_of_getLsbD_eq fun j hj => ?_⟩
  obtain rfl : j = 0 := by omega
  exact h

/-- A block is determined by its 64 bits. -/
theorem block_ext_getBit {v w : Block} (h : ∀ i, getBit v i = getBit w i) : v = w :=
  BitVec.eq_of_getLsbD_eq fun j hj => getBit_eq_iff.1 (h ⟨j, hj⟩)

theorem getBit_toNat (v : Block) (i : BitIndex) : (getBit v i).toNat = v.toNat / 2 ^ i.val % 2 := by
  simp [getBit, Nat.shiftRight_eq_div_pow]

@[simp] theorem getBit_zero (i : BitIndex) : getBit 0 i = 0 := by
  simp [getBit]

@[simp] theorem getBit_xor (v w : Block) (i : BitIndex) : getBit (v ^^^ w) i = getBit v i ^^^ getBit w i := by
  simp [getBit, BitVec.ushiftRight_xor_distrib, BitVec.setWidth_xor]

@[simp] theorem getBit_setBit_same (v : Block) (i : BitIndex) (b : BitVec 1) : getBit (setBit v i b) i = b := by
  refine BitVec.eq_of_getLsbD_eq fun j hj => ?_
  obtain rfl : j = 0 := by omega
  rw [getBit_getLsbD, setBit_getLsbD, if_pos rfl]

theorem getBit_setBit_of_ne (v : Block) {i j : BitIndex} (b : BitVec 1) (h : j ≠ i) :
    getBit (setBit v i b) j = getBit v j := by
  rw [getBit_eq_iff, setBit_getLsbD, if_neg (Fin.val_ne_of_ne h)]

theorem setBit_getBit (v : Block) (i : BitIndex) : setBit v i (getBit v i) = v := by
  refine block_ext_getBit fun j => ?_
  by_cases h : j = i
  · subst h; exact getBit_setBit_same ..
  · exact getBit_setBit_of_ne v _ h

/-! ### TRANSPOSE (R47, R48) -/

section
variable {n : Nat} (t : Table n) (h : n ≤ 64)

/-- Bit `j` of a transposition is the source bit that entry `j` names (R47). -/
@[simp] theorem getBit_transpose (v : Block) (j : Fin n) :
    getBit (transpose v t h) (Fin.castLE h j) = getBit v t[j] := by
  rw [getBit_eq_iff, transpose_getLsbD]
  exact dif_pos j.isLt

/-- The bits at and above the table's length are zero (R47, R48 (e)). -/
theorem getBit_transpose_of_le (v : Block) {i : BitIndex} (hi : n ≤ i.val) : getBit (transpose v t h) i = 0 := by
  rw [← getBit_zero i, getBit_eq_iff, transpose_getLsbD, dif_neg (Nat.not_lt.2 hi)]
  exact BitVec.getLsbD_zero.symm

theorem transpose_lt_two_pow (v : Block) : (transpose v t h).toNat < 2 ^ n := by
  refine Nat.lt_pow_two_of_testBit _ fun j hj => ?_
  rw [BitVec.testBit_toNat, transpose_getLsbD, dif_neg (Nat.not_lt.2 hj)]

variable {t} in
/-- A block is the transposition when it has the named source bits below the table's length and zeros from there on. -/
theorem transpose_eq_of_getBit {v w : Block} (hlow : ∀ j : Fin n, getBit w (Fin.castLE h j) = getBit v t[j])
    (hhigh : ∀ i : BitIndex, n ≤ i.val → getBit w i = 0) : transpose v t h = w := by
  refine block_ext_getBit fun i => ?_
  by_cases hi : i.val < n
  · exact (getBit_transpose t h v ⟨i, hi⟩).trans (hlow ⟨i, hi⟩).symm
  · rw [getBit_transpose_of_le t h v (Nat.le_of_not_lt hi), hhigh i (Nat.le_of_not_lt hi)]

/-- A source bit that no entry names does not matter (R48 (a)). -/
theorem transpose_setBit_of_dropped (v : Block) {i : BitIndex} (b : BitVec 1) (hi : ∀ j : Fin n, t[j] ≠ i) :
    transpose (setBit v i b) t h = transpose v t h := by
  refine transpose_eq_of_getBit h (fun j => ?_) fun i hi => getBit_transpose_of_le t h v hi
  rw [getBit_transpose, getBit_setBit_of_ne v b (hi j)]

/-- A transposition is linear over XOR (R48 (c)). -/
theorem transpose_xor (a b : Block) : transpose (a ^^^ b) t h = transpose a t h ^^^ transpose b t h := by
  refine transpose_eq_of_getBit h (fun j => ?_) fun i hi => ?_
  · simp
  · rw [getBit_xor, getBit_transpose_of_le t h a hi, getBit_transpose_of_le t h b hi]
    exact BitVec.xor_self

theorem transpose_zero : transpose 0 t h = 0 :=
  transpose_eq_of_getBit h (fun j => by rw [getBit_zero, getBit_zero]) fun i _ => getBit_zero i

end

/-! ### Inverse tables (R48 (d), R52) -/

section
variable {t u : Table 64} (hu : ∀ i : Fin 64, u[t[i]] = i)
include hu

/-- On 64 indices a left inverse is a right inverse. -/
theorem table_rightInverse (j : Fin 64) : t[u[j]] = j :=
  Function.LeftInverse.rightInverse_of_card_le (f := fun j : Fin 64 => u[j]) (g := fun i : Fin 64 => t[i]) hu le_rfl j

/-- Transposing by a table and then by its inverse gives the block back (R48 (d)). -/
theorem transpose_transpose_of_inverse (v : Block) : transpose (transpose v t) u = v := by
  refine transpose_eq_of_getBit _ (fun i => ?_) fun i hi => absurd i.isLt (Nat.not_lt.2 hi)
  have hbit : getBit (transpose v t) u[i] = getBit v t[u[i]] := getBit_transpose t le_rfl v u[i]
  rw [hbit, table_rightInverse hu i]
  rfl

end

/-- A table whose entries differ at different indices repeats no entry. -/
theorem table_toList_nodup {n : Nat} {t : Table n} (h : Function.Injective fun i : Fin n => t[i]) : t.toList.Nodup := by
  have hlist : t.toList = List.ofFn fun i : Fin n => t[i] :=
    List.ext_getElem (by simp) fun k _ _ => by simp
  rw [hlist, List.nodup_ofFn]
  exact h

/-! ### INIT (R50, R51, R55) -/

/-- INIT's writes give the listed values, whatever `FINAL` held (R50, R55). -/
theorem deriveFinal_eq_finalAfterInit (old : Table 64) : deriveFinal old = finalAfterInit :=
  (deriveFinal_inverseOfIP old).unique finalAfterInit_inverseOfIP

theorem exec_init_eq (s : State) : exec .init s =
    .next { s with final := finalAfterInit, initDone := true, responses := s.responses ++ [.z] } := by
  rw [exec_init, State.writeFinal, deriveFinal_eq_finalAfterInit]
  rfl

/-- INIT in a state that it has initialised only answers completion (R51). -/
theorem exec_init_of_initialised {s : State} (hdone : s.initDone = true) (hinv : InverseOfIP s.final) :
    exec .init s = .next { s with responses := s.responses ++ [.z] } := by
  rw [exec_init_eq, ← hinv.unique finalAfterInit_inverseOfIP, ← hdone]

/-! ### The statements on the engine and on INIT -/

/-- Settles O8: by the bits of a transposition, below the table's length and above it. -/
theorem transposeBitByBit : Obligations.TransposeBitByBit :=
  ⟨fun _ h t v => ⟨getBit_transpose t h v, transpose_lt_two_pow t h v⟩, by decide +kernel, by decide +kernel⟩

/-- Settles O9: a block equals a transposition when its bits do; the example of (d) is a case of the law of (d). -/
theorem transpositionLaws : Obligations.TranspositionLaws := by
  refine ⟨fun n h t => ⟨fun v i b hi => transpose_setBit_of_dropped t h v b hi, fun v j k hjk => ?_,
    transpose_xor t h, transpose_zero t h, fun v i hi => getBit_transpose_of_le t h v hi⟩,
    fun t u hu v => transpose_transpose_of_inverse hu v, by decide +kernel,
    transpose_transpose_of_inverse finalAfterInit_inverseOfIP _⟩
  rw [getBit_transpose, getBit_transpose, hjk]

/-- Settles O13: INIT's writes leave the inverse of `IP`, of which there is one, the listed table. -/
theorem initWritesFinalAndFlag : Obligations.InitWritesFinalAndFlag := exec_init_eq

/-- Settles O14: after INIT the flag is 1 and `FINAL` is the inverse of `IP`, which is all that a further INIT would write. -/
theorem initAgainChangesNothing : Obligations.InitAgainChangesNothing := by
  refine ⟨fun s t h => ?_, fun s hdone hinv => exec_init_of_initialised hdone hinv⟩
  cases h
  exact exec_init_of_initialised rfl (deriveFinal_inverseOfIP s.final)

/-- Settles O15: INIT's writes leave an inverse of `IP`; on 64 indices it is an inverse on both sides, so it repeats no entry
and both transpositions undo each other. -/
theorem initMakesFinalTheInverse : Obligations.InitMakesFinalTheInverse := by
  refine ⟨fun s t h => ?_, fun t ht => ?_⟩
  · cases h
    exact deriveFinal_inverseOfIP s.final
  · have hright : ∀ j : Fin 64, IP[t[j]] = j := table_rightInverse ht
    have hinj : Function.Injective fun j : Fin 64 => t[j] :=
      Function.LeftInverse.injective (g := fun i : Fin 64 => IP[i]) hright
    exact ⟨hright, table_toList_nodup hinj,
      fun v => ⟨transpose_transpose_of_inverse ht v, transpose_transpose_of_inverse hright v⟩,
      fun u hu => InverseOfIP.unique hu ht⟩

/-- Settles O7: by the bits of GETBIT and SETBIT; the rules' examples are evaluated. -/
theorem bitPrimitives : Obligations.BitPrimitives :=
  ⟨getBit_toNat, fun v i b => ⟨getBit_setBit_same v i b, fun _ hj => getBit_setBit_of_ne v b hj⟩, setBit_getBit,
    by decide, by decide, by decide, by decide⟩

/-- Settles O11: `IP` repeats no index because it has an inverse table; the other facts are read off the finite tables. -/
theorem tableEntriesAreValid : Obligations.TableEntriesAreValid :=
  ⟨by decide, by decide, by decide, table_toList_nodup IP_injective, by decide, by decide, by decide, by decide⟩

end Sys2Proof.Machine
end

section
/-! PROOFS. What a rotation table does to a half-key, and with it the rotation step of the key schedule; then the statements
on the constant tables (41_constant_tables.md). -/

namespace Sys2Proof.Machine

/-! ### Rotation of a half-key, bit by bit (R63, R73) -/

/-- Bit `i` of a half-key rotated left by `k` is the bit `k` places below it, counted around the 28 bits (R73). -/
theorem halfKey_rotateLeft_getLsbD (h : HalfKey) (k : Nat) {i : Nat} (hi : i < 28) :
    (h.rotateLeft k).getLsbD i = h.getLsbD ((i + (28 - k % 28)) % 28) := by
  rw [BitVec.getLsbD_rotateLeft]
  by_cases hlow : i < k % 28
  · have hsource : (i + (28 - k % 28)) % 28 = 28 - k % 28 + i := by omega
    simp [hsource, hlow]
  · have hsource : (i + (28 - k % 28)) % 28 = i - k % 28 := by omega
    simp [hsource, hlow, hi]

/-- Rotations of a half-key add up: the key schedule is cumulative (R73, D8). -/
theorem halfKey_rotateLeft_rotateLeft (h : HalfKey) (a b : Nat) :
    (h.rotateLeft a).rotateLeft b = h.rotateLeft (a + b) := by
  refine BitVec.eq_of_getLsbD_eq fun i hi => ?_
  have hsource : ((i + (28 - b % 28)) % 28 + (28 - a % 28)) % 28 = (i + (28 - (a + b) % 28)) % 28 := by omega
  rw [halfKey_rotateLeft_getLsbD _ b hi, halfKey_rotateLeft_getLsbD h a (Nat.mod_lt _ (by decide)),
    halfKey_rotateLeft_getLsbD h (a + b) hi, hsource]

/-- Entry `i` of the table is the index `k` places below `i`, counted around the 28 bits of a half-key (R63). -/
def RotatesHalfBy (t : Table 28) (k : Nat) : Prop :=
  ∀ i : Fin 28, t[i].val = (i.val + (28 - k % 28)) % 28

theorem ROT1_rotatesHalfBy_one : RotatesHalfBy ROT1 1 := by
  unfold RotatesHalfBy; decide

theorem ROT2_rotatesHalfBy_two : RotatesHalfBy ROT2 2 := by
  unfold RotatesHalfBy; decide

/-- Transposing a half-key by such a table rotates it left by `k` places; the bits above the half stay zero (R47, R63). -/
theorem transpose_halfKey_of_rotatesHalfBy {t : Table 28} {k : Nat} (ht : RotatesHalfBy t k) (h : HalfKey) :
    transpose (h.setWidth 64) t = (h.rotateLeft k).setWidth 64 := by
  refine BitVec.eq_of_getLsbD_eq fun j hj => ?_
  rw [transpose_getLsbD, BitVec.getLsbD_setWidth]
  split
  next hlow =>
    have hentry : t[j].val = (j + (28 - k % 28)) % 28 := ht ⟨j, hlow⟩
    rw [BitVec.getLsbD_setWidth, halfKey_rotateLeft_getLsbD h k hlow, hentry]
    simp [hj, show (j + (28 - k % 28)) % 28 < 64 by omega]
  next hhigh => simp [BitVec.getLsbD_of_ge (h.rotateLeft k) j (by omega)]

/-! ### The shift schedule and the rotation step (R62, R73) -/

/-- A round's shift count is 1 or 2, so its table is one of the two (R62). -/
theorem SHIFT_eq_one_or_two (r : Fin 16) : SHIFT[r] = 1 ∨ SHIFT[r] = 2 := by
  revert r; decide

/-- The table that a round takes rotates by that round's count (R73). -/
theorem rotationTable_rotatesHalfBy_SHIFT (r : Fin 16) :
    RotatesHalfBy (if SHIFT[r] = 1 then ROT1 else ROT2) SHIFT[r] := by
  obtain h | h := SHIFT_eq_one_or_two r
  · rw [h]; exact ROT1_rotatesHalfBy_one
  · rw [h]; exact ROT2_rotatesHalfBy_two

theorem rotateHalf_eq_rotateLeft (h : HalfKey) (r : Fin 16) : rotateHalf h r = h.rotateLeft SHIFT[r] := by
  rw [rotateHalf, transpose_halfKey_of_rotatesHalfBy (rotationTable_rotatesHalfBy_SHIFT r),
    BitVec.setWidth_setWidth_of_le _ (by decide), BitVec.setWidth_eq]

/-- Two rotations by one place are one rotation by two (R63, D8). -/
theorem transpose_ROT1_ROT1 (h : HalfKey) :
    transpose (transpose (h.setWidth 64) ROT1) ROT1 = transpose (h.setWidth 64) ROT2 := by
  rw [transpose_halfKey_of_rotatesHalfBy ROT1_rotatesHalfBy_one, transpose_halfKey_of_rotatesHalfBy ROT1_rotatesHalfBy_one,
    transpose_halfKey_of_rotatesHalfBy ROT2_rotatesHalfBy_two, halfKey_rotateLeft_rotateLeft]

/-! ### The statements on the constant tables -/

/-- Settles O12: the counts and entries are read off the tables; a table whose entries are `k` places below their index
rotates left by `k`, and rotations add up. -/
theorem rotationTablesRotateLeft : Obligations.RotationTablesRotateLeft :=
  ⟨by decide, by decide, fun i => ⟨ROT1_rotatesHalfBy_one i, ROT2_rotatesHalfBy_two i⟩, rotateHalf_eq_rotateLeft,
    transpose_ROT1_ROT1⟩

/-- Settles O10: each published entry is compared with the table's at its re-indexed place, one table after another: `IP`,
`FINAL`, `E`, `P`, `PC1L`, `PC1R`, `PC2`. -/
theorem tablesAreTheReindexedOriginals : Obligations.TablesAreTheReindexedOriginals :=
  ⟨by decide, by decide, by decide, by decide, by decide, by decide, by decide⟩

end Sys2Proof.Machine
end

section
/-! PROOFS. The round function: its expansion and permutation bit by bit, the eight substitution values as the nibbles of
the substitution's result, and the lookup's row and column; then the statements on the round function (42_round_function.md). -/

namespace Sys2Proof.Machine

/-! ### A transposition cut to its table's length (R11, R47) -/

/-- A source narrower than 64 bits is zero-extended and the result cut to the table's length: bit `j` is source bit `T[j]`. -/
theorem transpose_setWidth_getLsbD {w n : Nat} (h : n ≤ 64) (v : BitVec w) (t : Table n) (j : Fin n) :
    ((transpose (v.setWidth 64) t h).setWidth n).getLsbD j = v.getLsbD t[j].val := by
  rw [BitVec.getLsbD_setWidth, transpose_getLsbD, dif_pos j.isLt, BitVec.getLsbD_setWidth]
  simp

/-! ### Expansion and permutation (R66) -/

theorem expand_getLsbD (right : Half) (j : Fin 48) : (expand right).getLsbD j = right.getLsbD E[j].val :=
  transpose_setWidth_getLsbD (by decide) right E j

theorem roundF_getLsbD (right : Half) (k : Subkey) (j : Fin 32) :
    (roundF right k).getLsbD j = (substitute (expand right ^^^ k)).getLsbD P[j].val :=
  transpose_setWidth_getLsbD (by decide) _ P j

/-- Expansion commutes with complement, because every entry of `E` names a bit of the half-block. -/
theorem expand_not (right : Half) : expand (~~~right) = ~~~expand right := by
  refine BitVec.eq_of_getLsbD_eq fun j hj => ?_
  have hE : E[j].val < 32 := (tableEntriesAreValid.1 ⟨j, hj⟩).1
  have hnot : (expand (~~~right)).getLsbD j = (~~~right).getLsbD E[j].val := expand_getLsbD (~~~right) ⟨j, hj⟩
  have hbit : (expand right).getLsbD j = right.getLsbD E[j].val := expand_getLsbD right ⟨j, hj⟩
  rw [hnot, BitVec.getLsbD_not, BitVec.getLsbD_not, hbit]
  simp [hE, hj]

/-- The operands count only through the XOR of the expansion and the subkey (R68 (c)). -/
theorem roundF_congr {r r' : Half} {k k' : Subkey} (h : expand r ^^^ k = expand r' ^^^ k') : roundF r k = roundF r' k' := by
  rw [roundF, roundF, h]

/-- Complementing both operands leaves the XOR as it is (R68 (c)). -/
theorem roundF_not (r : Half) (k : Subkey) : roundF (~~~r) (~~~k) = roundF r k :=
  roundF_congr (by rw [expand_not, ← BitVec.not_xor_left, ← BitVec.not_xor_right, BitVec.not_not])

/-! ### Worked values (R68 (a), (b)) -/

theorem roundF_zero_zero : roundF 0 0 = 0xD8D8DBBC := by decide +kernel

theorem roundF_ones_zero : roundF 0xFFFFFFFF 0 = 0x38DBF9CB := by decide +kernel

/-! ### The substitution values as nibbles (R66) -/

/-- One round of the loop of `substitute`: the values so far move up one nibble, the next one takes the lowest. -/
def appendNibble (y : Half) (b : BitVec 4) : Half := (y <<< 4) ||| b.setWidth 32

theorem appendNibble_getLsbD (y : Half) (b : BitVec 4) {j : Nat} (hj : j < 32) :
    (appendNibble y b).getLsbD j = if j < 4 then b.getLsbD j else y.getLsbD (j - 4) := by
  rw [appendNibble, BitVec.getLsbD_or, BitVec.getLsbD_shiftLeft, BitVec.getLsbD_setWidth]
  split
  next hlow => simp [hj, hlow]
  next hhigh => simp [hj, hhigh, BitVec.getLsbD_of_ge b j (by omega)]

theorem appendNibble_lowest (y : Half) (b : BitVec 4) : (appendNibble y b).extractLsb' 0 4 = b := by
  refine BitVec.eq_of_getLsbD_eq fun j hj => ?_
  rw [BitVec.getLsbD_extractLsb', Nat.zero_add, appendNibble_getLsbD y b (by omega), if_pos hj]
  simp [hj]

theorem appendNibble_above (y : Half) (b : BitVec 4) {k : Nat} (hk : k < 7) :
    (appendNibble y b).extractLsb' (4 * (k + 1)) 4 = y.extractLsb' (4 * k) 4 := by
  refine BitVec.eq_of_getLsbD_eq fun j hj => ?_
  have hplace : 4 * (k + 1) + j - 4 = 4 * k + j := by omega
  rw [BitVec.getLsbD_extractLsb', BitVec.getLsbD_extractLsb', appendNibble_getLsbD y b (by omega), if_neg (by omega), hplace]

/-- Of at most eight values appended from the last of the list to its first, value `k` of the list is nibble `k`. -/
theorem foldr_appendNibble_extract (bs : List (BitVec 4)) (hbs : bs.length ≤ 8) {k : Nat} (hk : k < bs.length) :
    (bs.foldr (fun b y => appendNibble y b) 0).extractLsb' (4 * k) 4 = bs[k] := by
  induction bs generalizing k with
  | nil => exact absurd hk (Nat.not_lt_zero k)
  | cons b bs ih =>
    rw [List.length_cons] at hbs hk
    cases k with
    | zero => exact appendNibble_lowest _ b
    | succ k =>
      rw [List.foldr_cons, appendNibble_above _ b (by omega)]
      exact ih (by omega) (by omega)

/-- The loop of `substitute` appends the values of groups 0 to 7 in this order. -/
theorem substitute_eq_foldr (x : Subkey) :
    substitute x = ((List.ofFn fun i : Fin 8 => sbox i (group x i)).reverse).foldr (fun b y => appendNibble y b) 0 := by
  rw [List.foldr_reverse, List.ofFn_eq_map, List.foldl_map]
  rfl

/-- Group 0 is the most significant: the value of group `i` is nibble `7 - i`. -/
theorem substitute_extract (x : Subkey) (i : Fin 8) :
    (substitute x).extractLsb' (4 * (7 - i.val)) 4 = sbox i (group x i) := by
  have hplace : 8 - 1 - (7 - i.val) = i.val := by omega
  rw [substitute_eq_foldr, foldr_appendNibble_extract _ (by simp) (by simp; omega), List.getElem_reverse, List.getElem_ofFn]
  simp only [List.length_ofFn, hplace]

/-! ### The lookup (R65) -/

/-- The group whose bits 5 and 0 are a row and whose bits 4 to 1 are a column. -/
def groupOf (row : Fin 4) (col : Fin 16) : BitVec 6 := BitVec.ofNat 6 (32 * (row.val / 2) + 2 * col.val + row.val % 2)

theorem groupOf_row (row : Fin 4) (col : Fin 16) :
    ((groupOf row col).extractLsb' 5 1 ++ (groupOf row col).extractLsb' 0 1).toFin = row := by
  revert row col; decide

theorem groupOf_col (row : Fin 4) (col : Fin 16) : ((groupOf row col).extractLsb' 1 4).toFin = col := by
  revert row col; decide

theorem sbox_groupOf (i : Fin 8) (row : Fin 4) (col : Fin 16) : sbox i (groupOf row col) = S[i][row][col] := by
  simp only [sbox, groupOf_row, groupOf_col]

/-! ### The statements on the round function -/

/-- Settles O17: expansion and permutation are transpositions, and the substitution values are the nibbles from the top. -/
theorem roundFunctionBitByBit : Obligations.RoundFunctionBitByBit :=
  ⟨expand_getLsbD, substitute_extract, roundF_getLsbD⟩

/-- Settles O18: the complement law takes the two worked values with an all-ones subkey to the two of the complemented
operands; those and the last worked value are evaluated. -/
theorem roundFunctionLaws : Obligations.RoundFunctionLaws :=
  ⟨roundF_zero_zero, (roundF_not 0 0).trans roundF_zero_zero, roundF_ones_zero,
    (roundF_not 0xFFFFFFFF 0).trans roundF_ones_zero, by decide +kernel, fun _ _ _ _ => roundF_congr, roundF_not⟩

/-- Settles O16: a row and a column make up a group, from which the lookup takes them back; the flattened tables are
compared entry by entry. -/
theorem substitutionLookup : Obligations.SubstitutionLookup :=
  ⟨sbox_groupOf, by decide +kernel⟩

end Sys2Proof.Machine
end

section
/-! PROOFS. The key schedule: its selection steps bit by bit and under complement, the rounds as one rotation of the halves
that step PC-1 selects, and what a subkey depends on; then the statements on the key schedule (43_key_schedule.md). -/

namespace Sys2Proof.Machine

/-! ### The selection steps as transpositions cut to their table's length (R72, R74) -/

theorem pc1Left_eq (key : Key) : pc1Left key = (transpose (key.setWidth 64) PC1L).setWidth 28 := by
  rw [BitVec.setWidth_eq, pc1Left]

theorem pc1Right_eq (key : Key) : pc1Right key = (transpose (key.setWidth 64) PC1R).setWidth 28 := by
  rw [BitVec.setWidth_eq, pc1Right]

/-- The source of step PC-2 is `C ++ D` (R74, D7). -/
theorem pc2_eq (c d : HalfKey) : pc2 c d = (transpose ((c ++ d).setWidth 64) PC2).setWidth 48 := by
  rw [BitVec.setWidth_append_eq_shiftLeft_setWidth_or, pc2]

theorem pc1Left_getLsbD (key : Key) (j : Fin 28) : (pc1Left key).getLsbD j = key.getLsbD PC1L[j].val := by
  rw [pc1Left_eq, transpose_setWidth_getLsbD]

theorem pc1Right_getLsbD (key : Key) (j : Fin 28) : (pc1Right key).getLsbD j = key.getLsbD PC1R[j].val := by
  rw [pc1Right_eq, transpose_setWidth_getLsbD]

theorem pc2_getLsbD (c d : HalfKey) (j : Fin 48) : (pc2 c d).getLsbD j = (c ++ d).getLsbD PC2[j].val := by
  rw [pc2_eq, transpose_setWidth_getLsbD]

/-! ### Which half a subkey bit comes from (R61, R77 (d)) -/

/-- The entries of groups 0 to 3 name bits of `C`, the others bits of `D` (R61). -/
theorem PC2_entry_lt_28_iff (j : Fin 48) : PC2[j].val < 28 ↔ 24 ≤ j.val := by
  revert j; decide

theorem pc2_getLsbD_eq_half (c d : HalfKey) (j : Fin 48) :
    (pc2 c d).getLsbD j = if 24 ≤ j.val then d.getLsbD PC2[j].val else c.getLsbD (PC2[j].val - 28) := by
  rw [pc2_getLsbD, BitVec.getLsbD_append, if_congr (PC2_entry_lt_28_iff j) rfl rfl]

/-- Groups 0 to 3 do not see `D`. -/
theorem pc2_low_groups (c d d' : HalfKey) : (pc2 c d).extractLsb' 0 24 = (pc2 c d').extractLsb' 0 24 := by
  refine BitVec.eq_of_getLsbD_eq fun j hj => ?_
  have hbit (d : HalfKey) := pc2_getLsbD_eq_half c d ⟨j, by omega⟩
  simp only [Nat.not_le.2 hj, if_false] at hbit
  rw [BitVec.getLsbD_extractLsb', BitVec.getLsbD_extractLsb', Nat.zero_add, hbit, hbit]

/-- Groups 4 to 7 do not see `C`. -/
theorem pc2_high_groups (c c' d : HalfKey) : (pc2 c d).extractLsb' 24 24 = (pc2 c' d).extractLsb' 24 24 := by
  refine BitVec.eq_of_getLsbD_eq fun j hj => ?_
  have hbit (c : HalfKey) := pc2_getLsbD_eq_half c d ⟨24 + j, by omega⟩
  simp only [Nat.le_add_right, if_true] at hbit
  rw [BitVec.getLsbD_extractLsb', BitVec.getLsbD_extractLsb', hbit, hbit]

/-! ### Rotation of a half-key: by nothing, all the way round, of zero, of a complement (R73, R77) -/

theorem halfKey_rotateLeft_zero (h : HalfKey) : h.rotateLeft 0 = h := by
  refine BitVec.eq_of_getLsbD_eq fun i hi => ?_
  have hsource : (i + (28 - 0 % 28)) % 28 = i := by omega
  rw [halfKey_rotateLeft_getLsbD h 0 hi, hsource]

theorem halfKey_rotateLeft_full (h : HalfKey) : h.rotateLeft 28 = h :=
  (BitVec.rotateLeft_mod_eq_rotateLeft (x := h) (r := 28)).symm.trans (halfKey_rotateLeft_zero h)

theorem halfKey_zero_rotateLeft (k : Nat) : (0 : HalfKey).rotateLeft k = 0 :=
  BitVec.eq_of_getLsbD_eq fun i hi => by rw [halfKey_rotateLeft_getLsbD 0 k hi]; simp

theorem halfKey_rotateLeft_not (h : HalfKey) (k : Nat) : (~~~h).rotateLeft k = ~~~h.rotateLeft k := by
  refine BitVec.eq_of_getLsbD_eq fun i hi => ?_
  rw [BitVec.getLsbD_not, halfKey_rotateLeft_getLsbD _ k hi, halfKey_rotateLeft_getLsbD h k hi, BitVec.getLsbD_not]
  simp [hi, Nat.mod_lt]

/-! ### The rounds (R73 to R75) -/

/-- The places that the rounds of a list rotate the halves by, in all. -/
def totalShift (is : List (Fin 16)) : Nat := (is.map fun r => SHIFT[r]).sum

/-- Rounds rotate both halves, and the rotations add up (R73, D8). -/
theorem keyRound_loop_halves (is : List (Fin 16)) (k : KeyRegs) :
    (is.foldl keyRound k).c = k.c.rotateLeft (totalShift is) ∧
    (is.foldl keyRound k).d = k.d.rotateLeft (totalShift is) := by
  induction is generalizing k with
  | nil => exact ⟨(halfKey_rotateLeft_zero k.c).symm, (halfKey_rotateLeft_zero k.d).symm⟩
  | cons i is ih =>
    obtain ⟨hc, hd⟩ := ih (keyRound k i)
    have hsum : totalShift (i :: is) = SHIFT[i] + totalShift is := by simp [totalShift]
    rw [List.foldl_cons, hc, hd, hsum, ← halfKey_rotateLeft_rotateLeft, ← halfKey_rotateLeft_rotateLeft,
      ← rotateHalf_eq_rotateLeft, ← rotateHalf_eq_rotateLeft]
    exact ⟨rfl, rfl⟩

/-- Rounds leave the subkeys of other rounds as they are. -/
theorem keyRound_loop_subkey_of_notMem {is : List (Fin 16)} {r : Fin 16} (hr : r ∉ is) (k : KeyRegs) :
    (is.foldl keyRound k).subkey[r] = k.subkey[r] := by
  induction is generalizing k with
  | nil => rfl
  | cons i is ih =>
    have hne : i.val ≠ r.val := fun h => List.ne_of_not_mem_cons hr (Fin.ext h.symm)
    rw [List.foldl_cons, ih (List.not_mem_of_not_mem_cons hr)]
    exact Vector.getElem_set_ne i.isLt r.isLt hne

/-- Round `r` stores step PC-2 of the halves as it leaves them, and no later round writes that subkey (R74). -/
theorem keyRound_loop_subkey (before after : List (Fin 16)) {r : Fin 16} (hr : r ∉ after) (k : KeyRegs) :
    ((before ++ [r] ++ after).foldl keyRound k).subkey[r] =
      pc2 (k.c.rotateLeft (totalShift (before ++ [r]))) (k.d.rotateLeft (totalShift (before ++ [r]))) := by
  obtain ⟨hc, hd⟩ := keyRound_loop_halves (before ++ [r]) k
  rw [List.foldl_append, keyRound_loop_subkey_of_notMem hr, ← hc, ← hd, List.foldl_append]
  exact Vector.getElem_set_self _

/-- The rounds before round `r`, the round itself and those after it, with the places rotated by once it is done. -/
theorem rounds_split (r : Fin 16) :
    List.finRange 16 = (List.finRange 16).take r ++ [r] ++ (List.finRange 16).drop (r + 1) ∧
    r ∉ (List.finRange 16).drop (r + 1) ∧
    totalShift ((List.finRange 16).take r ++ [r]) = (SHIFT.toList.take (r + 1)).sum := by
  revert r; decide

theorem totalShift_all_rounds : totalShift (List.finRange 16) = 28 := by decide

/-- `SUBKEY[r]` in terms of the key alone (R75). -/
theorem keySchedule_subkey_getElem (old : Vector Subkey 16) (key : Key) (r : Fin 16) :
    (keySchedule old key).subkey[r] =
      pc2 ((pc1Left key).rotateLeft (SHIFT.toList.take (r.val + 1)).sum)
        ((pc1Right key).rotateLeft (SHIFT.toList.take (r.val + 1)).sum) := by
  obtain ⟨hsplit, hlater, hsum⟩ := rounds_split r
  rw [keySchedule, hsplit, keyRound_loop_subkey _ _ hlater, hsum]

/-- After round 15 the halves are those of step PC-1 again (R77 (a)). -/
theorem keySchedule_halves (old : Vector Subkey 16) (key : Key) :
    (keySchedule old key).c = pc1Left key ∧ (keySchedule old key).d = pc1Right key := by
  obtain ⟨hc, hd⟩ := keyRound_loop_halves (List.finRange 16) ⟨pc1Left key, pc1Right key, old⟩
  rw [totalShift_all_rounds, halfKey_rotateLeft_full] at hc hd
  exact ⟨hc, hd⟩

/-- The last subkey is step PC-2 of the unrotated halves (R77 (a)). -/
theorem keySchedule_last_subkey (old : Vector Subkey 16) (key : Key) :
    (keySchedule old key).subkey[15] = pc2 (pc1Left key) (pc1Right key) := by
  have hlast := keySchedule_subkey_getElem old key 15
  have hsum : (SHIFT.toList.take ((15 : Fin 16).val + 1)).sum = 28 := by decide
  rw [hsum, halfKey_rotateLeft_full, halfKey_rotateLeft_full] at hlast
  exact hlast

/-! ### Complement (R77 (c)) -/

/-- A transposition whose entries all name bits of its source commutes with complement. -/
theorem transpose_setWidth_not {w n : Nat} (h : n ≤ 64) (v : BitVec w) {t : Table n} (ht : ∀ j : Fin n, t[j].val < w) :
    (transpose ((~~~v).setWidth 64) t h).setWidth n = ~~~(transpose (v.setWidth 64) t h).setWidth n := by
  refine BitVec.eq_of_getLsbD_eq fun j hj => ?_
  have hentry : t[j].val < w := ht ⟨j, hj⟩
  have hbit (v : BitVec w) := transpose_setWidth_getLsbD h v t ⟨j, hj⟩
  rw [BitVec.getLsbD_not, hbit, hbit, BitVec.getLsbD_not]
  simp [hj, hentry]

theorem pc1Left_not (key : Key) : pc1Left (~~~key) = ~~~pc1Left key := by
  rw [pc1Left_eq, pc1Left_eq, transpose_setWidth_not _ key fun j => PC1L[j].isLt]

theorem pc1Right_not (key : Key) : pc1Right (~~~key) = ~~~pc1Right key := by
  rw [pc1Right_eq, pc1Right_eq, transpose_setWidth_not _ key fun j => PC1R[j].isLt]

theorem pc2_not (c d : HalfKey) : pc2 (~~~c) (~~~d) = ~~~pc2 c d := by
  rw [pc2_eq, pc2_eq, ← BitVec.not_append, transpose_setWidth_not _ (c ++ d) fun j => (tableEntriesAreValid.1 j).2]

/-- Complementing the key complements every subkey (R77 (c)). -/
theorem subkeysOf_not (key : Key) (r : Fin 16) : (subkeysOf (~~~key))[r] = ~~~(subkeysOf key)[r] := by
  rw [subkeysOf, subkeysOf, keySchedule_subkey_getElem, keySchedule_subkey_getElem, pc1Left_not, pc1Right_not,
    halfKey_rotateLeft_not, halfKey_rotateLeft_not, pc2_not]

/-! ### Parity positions (R76) -/

section
variable {m : Key} (hm : m &&& 0xFEFEFEFEFEFEFEFE = 0)
include hm

/-- Such an `m` has no bit outside the parity positions. -/
theorem getLsbD_of_parity_only {i : BitIndex} (hi : i.val % 8 ≠ 0) : m.getLsbD i = false := by
  have hmask : ∀ i : BitIndex, i.val % 8 ≠ 0 → (0xFEFEFEFEFEFEFEFE : Key).getLsbD i = true := by decide
  have hand : (m &&& 0xFEFEFEFEFEFEFEFE).getLsbD i = false := by rw [hm]; exact BitVec.getLsbD_zero
  rwa [BitVec.getLsbD_and, hmask i hi, Bool.and_true] at hand

/-- Step PC-1 selects no parity position. -/
theorem pc1_xor_parity (key : Key) : pc1Left (key ^^^ m) = pc1Left key ∧ pc1Right (key ^^^ m) = pc1Right key := by
  obtain ⟨-, -, -, -, -, -, -, hentry⟩ := tableEntriesAreValid
  refine ⟨BitVec.eq_of_getLsbD_eq fun j hj => ?_, BitVec.eq_of_getLsbD_eq fun j hj => ?_⟩
  · have hbit (key : Key) := pc1Left_getLsbD key ⟨j, hj⟩
    rw [hbit, hbit, BitVec.getLsbD_xor, getLsbD_of_parity_only hm (hentry ⟨j, hj⟩).1, Bool.xor_false]
  · have hbit (key : Key) := pc1Right_getLsbD key ⟨j, hj⟩
    rw [hbit, hbit, BitVec.getLsbD_xor, getLsbD_of_parity_only hm (hentry ⟨j, hj⟩).2, Bool.xor_false]

theorem subkeysOf_xor_parity (key : Key) : subkeysOf (key ^^^ m) = subkeysOf key := by
  obtain ⟨hleft, hright⟩ := pc1_xor_parity hm key
  rw [subkeysOf, subkeysOf, keySchedule, keySchedule, hleft, hright]

end

/-! ### What a result sees of the key (R76) -/

section
variable {key key' : Key} (hkey : subkeysOf key = subkeysOf key')
include hkey

theorem desBlock_congr_subkeys (t : Table 64) (b : Block) (dir : Direction) :
    desBlock t b key dir = desBlock t b key' dir := by
  rw [desBlock, desBlock, hkey]

theorem cbcBlocks_congr_subkeys (t : Table 64) (dir : Direction) (chain : Block) (bs : List Block) :
    cbcBlocks t dir key chain bs = cbcBlocks t dir key' chain bs := by
  induction bs generalizing chain with
  | nil => rfl
  | cons b bs ih =>
    have hblock : cbcBlock t dir key chain b = cbcBlock t dir key' chain b := by
      rw [cbcBlock, cbcBlock, desBlock_congr_subkeys hkey]
    rw [cbcBlocks_cons, cbcBlocks_cons, hblock, ih]

theorem cbcOutput_congr_subkeys (t : Table 64) (dir : Direction) (iv : Block) (din : List Byte) :
    cbcOutput t dir iv key din = cbcOutput t dir iv key' din := by
  rw [cbcOutput, cbcOutput, cbcBlocks_congr_subkeys hkey]

end

/-! ### Keys whose subkeys are all equal (R76) -/

theorem subkeysOf_zero (r : Fin 16) : (subkeysOf 0)[r] = 0 := by
  have hleft : pc1Left 0 = 0 := by rw [pc1Left, transpose_zero]; rfl
  have hright : pc1Right 0 = 0 := by rw [pc1Right, transpose_zero]; rfl
  have hpc2 : pc2 0 0 = 0 := by rw [pc2_eq]; exact congrArg (BitVec.setWidth 48) (transpose_zero PC2 (by decide))
  rw [subkeysOf, keySchedule_subkey_getElem, hleft, hright, halfKey_zero_rotateLeft, hpc2]

/-- The parity positions alone are no more than the zero key. -/
theorem subkeysOf_parity_mask : subkeysOf 0x0101010101010101 = subkeysOf 0 := by
  have hxor : (0 : Key) ^^^ 0x0101010101010101 = 0x0101010101010101 := BitVec.zero_xor
  rw [← hxor, subkeysOf_xor_parity (by decide)]

/-- Where all subkeys are equal, forward and reverse order are one. -/
theorem desBlock_direction_irrelevant {key : Key} (h : ∀ r : Fin 16, (subkeysOf key)[r] = (subkeysOf key)[0])
    (t : Table 64) (b : Block) : desBlock t b key .encrypt = desBlock t b key .decrypt := by
  have hround : roundKey (subkeysOf key) .encrypt = roundKey (subkeysOf key) .decrypt :=
    funext fun r => (h r).trans (h r.rev).symm
  rw [desBlock, desBlock, feistel, feistel, hround]

/-! ### The statements on the key schedule -/

/-- Settles O19: both steps are transpositions cut to their table's length, step PC-2 of `C ++ D`. -/
theorem keySelectionBitByBit : Obligations.KeySelectionBitByBit :=
  ⟨fun key j => ⟨pc1Left_getLsbD key j, pc1Right_getLsbD key j⟩, pc2_getLsbD⟩

/-- Settles O20: by induction over the rounds, whose rotations add up, and because no round writes another round's subkey. -/
theorem subkeysByCumulativeRotation : Obligations.SubkeysByCumulativeRotation := keySchedule_subkey_getElem

/-- Settles O21: 28 places are a whole turn of a half; selections and rotations commute with complement; and the entries of
`PC2` below and above 28 are those of the upper and the lower groups. -/
theorem keyScheduleLaws : Obligations.KeyScheduleLaws := by
  refine ⟨by decide, fun old key => ?_, keySchedule_subkey, subkeysOf_not,
    fun c c' d d' => ⟨pc2_low_groups c d d', pc2_high_groups c c' d⟩⟩
  obtain ⟨hc, hd⟩ := keySchedule_halves old key
  exact ⟨hc, hd, keySchedule_last_subkey old key⟩

/-- Settles O22: step PC-1 selects no parity position and results see the subkeys only; the named keys are the zero key, the
parity positions and their complements. -/
theorem parityPositionsAreIgnored : Obligations.ParityPositionsAreIgnored := by
  have hzero : ∀ r : Fin 16, (subkeysOf 0)[r] = 0 := subkeysOf_zero
  have hmask : ∀ r : Fin 16, (subkeysOf 0x0101010101010101)[r] = 0 := fun r => by
    rw [subkeysOf_parity_mask, subkeysOf_zero]
  refine ⟨fun key m hm => ?_, fun r => ⟨hzero r, hmask r, ?_, ?_⟩, fun t b => ⟨?_, ?_⟩⟩
  · have hsub := subkeysOf_xor_parity hm key
    exact ⟨hsub, cbcOutput_congr_subkeys hsub⟩
  · exact (subkeysOf_not 0 r).trans (by rw [hzero]; rfl)
  · exact (subkeysOf_not 0x0101010101010101 r).trans (by rw [hmask]; rfl)
  · exact desBlock_direction_irrelevant (fun r => (hzero r).trans (hzero 0).symm) t b
  · exact desBlock_direction_irrelevant (fun r => (hmask r).trans (hmask 0).symm) t b

end Sys2Proof.Machine
end

section
/-! PROOFS. The single-block transform: its steps bit by bit and as folds over the subkeys, the rounds undone in reverse order,
and complement; then the statements on the block transform (44_des_block.md). -/

namespace Sys2Proof.Machine

/-! ### The initial permutation with its split, and the merge with its swap (R78, R79, R82) -/

/-- The halves exchanged, as the merge exchanges them (R82). -/
def Halves.swap (h : Halves) : Halves := { l := h.r, r := h.l }

/-- The split's halves, left half high, are the permuted block (R78, R79). -/
theorem loadHalves_append (b : Block) : (loadHalves b).l ++ (loadHalves b).r = transpose b IP :=
  (BitVec.extractLsb'_append_extractLsb'_eq_extractLsb' rfl).trans BitVec.extractLsb'_eq_self

/-- The split of a permuted block that is known as two halves. -/
theorem loadHalves_eq_of_transpose {b : Block} {l r : Half} (h : transpose b IP = l ++ r) : loadHalves b = ⟨l, r⟩ := by
  rw [loadHalves, h, BitVec.extractLsb'_append_eq_left, BitVec.extractLsb'_append_eq_right]

/-- The merge puts the right half high (R82). -/
theorem mergeHalves_eq (t : Table 64) (h : Halves) : mergeHalves t h = transpose (h.r ++ h.l) t := by
  rw [mergeHalves, ← BitVec.setWidth_append_eq_shiftLeft_setWidth_or, BitVec.setWidth_eq]

theorem transpose64_getLsbD (v : Block) (t : Table 64) (j : Fin 64) :
    (transpose v t).getLsbD j = v.getLsbD t[j].val := by
  rw [transpose_getLsbD, dif_pos j.isLt]
  rfl

theorem loadHalves_l_getLsbD (b : Block) (j : Fin 32) : (loadHalves b).l.getLsbD j = b.getLsbD IP[32 + j.val].val := by
  rw [loadHalves, BitVec.getLsbD_extractLsb', decide_eq_true j.isLt, Bool.true_and]
  exact transpose64_getLsbD b IP ⟨32 + j.val, by omega⟩

theorem loadHalves_r_getLsbD (b : Block) (j : Fin 32) : (loadHalves b).r.getLsbD j = b.getLsbD IP[j.val].val := by
  rw [loadHalves, BitVec.getLsbD_extractLsb', decide_eq_true j.isLt, Bool.true_and, Nat.zero_add]
  exact transpose64_getLsbD b IP ⟨j.val, by omega⟩

/-! ### The rounds as a fold over the subkeys (R81) -/

/-- The rounds with the subkeys `ks`, in this order. -/
def runRoundKeys (ks : List Subkey) (h : Halves) : Halves := ks.foldl (fun h k => feistelRound k h) h

theorem runRoundKeys_concat (ks : List Subkey) (k : Subkey) (h : Halves) :
    runRoundKeys (ks ++ [k]) h = feistelRound k (runRoundKeys ks h) :=
  List.foldl_concat ..

theorem feistel_eq_runRoundKeys (sk : Vector Subkey 16) (dir : Direction) (h : Halves) :
    feistel sk dir h = runRoundKeys ((List.finRange 16).map (roundKey sk dir)) h := by
  rw [feistel, runRoundKeys, List.foldl_map]

theorem roundKeys_encrypt (sk : Vector Subkey 16) : (List.finRange 16).map (roundKey sk .encrypt) = sk.toList :=
  List.ext_getElem (by simp) fun k _ _ => by simp [roundKey]

theorem roundKeys_decrypt (sk : Vector Subkey 16) :
    (List.finRange 16).map (roundKey sk .decrypt) = sk.toList.reverse := by
  rw [← roundKeys_encrypt, ← List.map_reverse, List.finRange_reverse, List.map_map]
  rfl

theorem feistel_encrypt (sk : Vector Subkey 16) (h : Halves) : feistel sk .encrypt h = runRoundKeys sk.toList h := by
  rw [feistel_eq_runRoundKeys, roundKeys_encrypt]

theorem feistel_decrypt (sk : Vector Subkey 16) (h : Halves) :
    feistel sk .decrypt h = runRoundKeys sk.toList.reverse h := by
  rw [feistel_eq_runRoundKeys, roundKeys_decrypt]

/-! ### The inverse law (R84) -/

/-- A round on the exchanged halves undoes the round with the same subkey, whatever `F` is. -/
theorem feistelRound_swap_feistelRound (k : Subkey) (h : Halves) :
    feistelRound k (feistelRound k h).swap = h.swap := by
  simp [feistelRound, Halves.swap]

/-- Rounds are undone by the rounds with the same subkeys in reverse order, on the exchanged halves. -/
theorem runRoundKeys_reverse_swap (ks : List Subkey) (h : Halves) :
    runRoundKeys ks.reverse (runRoundKeys ks h).swap = h.swap := by
  induction ks generalizing h with
  | nil => rfl
  | cons k ks ih =>
    calc runRoundKeys (k :: ks).reverse (runRoundKeys (k :: ks) h).swap
        = feistelRound k (runRoundKeys ks.reverse (runRoundKeys ks (feistelRound k h)).swap) := by
          rw [List.reverse_cons, runRoundKeys_concat]; rfl
      _ = feistelRound k (feistelRound k h).swap := by rw [ih]
      _ = h.swap := feistelRound_swap_feistelRound k h

theorem feistel_decrypt_swap_encrypt (sk : Vector Subkey 16) (h : Halves) :
    feistel sk .decrypt (feistel sk .encrypt h).swap = h.swap := by
  rw [feistel_decrypt, feistel_encrypt, runRoundKeys_reverse_swap]

theorem feistel_encrypt_swap_decrypt (sk : Vector Subkey 16) (h : Halves) :
    feistel sk .encrypt (feistel sk .decrypt h).swap = h.swap := by
  have hundo := runRoundKeys_reverse_swap sk.toList.reverse h
  rwa [List.reverse_reverse, ← feistel_encrypt, ← feistel_decrypt] at hundo

section
variable {t : Table 64} (ht : InverseOfIP t)
include ht

/-- Loading a merged block gives the halves exchanged, because `IP` undoes the final table. -/
theorem loadHalves_mergeHalves (h : Halves) : loadHalves (mergeHalves t h) = h.swap := by
  refine loadHalves_eq_of_transpose ?_
  rw [mergeHalves_eq, transpose_transpose_of_inverse (table_rightInverse ht)]

/-- Merging the exchanged halves of a loaded block gives the block, because the final table undoes `IP`. -/
theorem mergeHalves_swap_loadHalves (b : Block) : mergeHalves t (loadHalves b).swap = b := by
  rw [mergeHalves_eq, Halves.swap, loadHalves_append, transpose_transpose_of_inverse ht]

/-- A direction whose rounds undo those of another, on the exchanged halves, undoes it on blocks. -/
theorem desBlock_desBlock_of_rounds_undo {key : Key} {dir dir' : Direction}
    (hundo : ∀ h, feistel (subkeysOf key) dir' (feistel (subkeysOf key) dir h).swap = h.swap) (b : Block) :
    desBlock t (desBlock t b key dir) key dir' = b := by
  rw [desBlock, desBlock, loadHalves_mergeHalves ht, hundo, mergeHalves_swap_loadHalves ht]

theorem desBlock_decrypt_encrypt (key : Key) (b : Block) :
    desBlock t (desBlock t b key .encrypt) key .decrypt = b :=
  desBlock_desBlock_of_rounds_undo ht (feistel_decrypt_swap_encrypt _) b

theorem desBlock_encrypt_decrypt (key : Key) (b : Block) :
    desBlock t (desBlock t b key .decrypt) key .encrypt = b :=
  desBlock_desBlock_of_rounds_undo ht (feistel_encrypt_swap_decrypt _) b

end

/-! ### Complement (R85 (c)) -/

/-- Both halves complemented. -/
def Halves.complement (h : Halves) : Halves := { l := ~~~h.l, r := ~~~h.r }

/-- Transposition by a full table commutes with complement. -/
theorem transpose64_not (v : Block) (t : Table 64) : transpose (~~~v) t = ~~~transpose v t := by
  have hnot := transpose_setWidth_not le_rfl v fun j => t[j].isLt
  rwa [BitVec.setWidth_eq, BitVec.setWidth_eq, BitVec.setWidth_eq, BitVec.setWidth_eq] at hnot

theorem loadHalves_not (b : Block) : loadHalves (~~~b) = (loadHalves b).complement := by
  refine loadHalves_eq_of_transpose ?_
  rw [transpose64_not, ← loadHalves_append, BitVec.not_append]

theorem mergeHalves_complement (t : Table 64) (h : Halves) : mergeHalves t h.complement = ~~~mergeHalves t h := by
  rw [mergeHalves_eq, mergeHalves_eq, ← transpose64_not, BitVec.not_append]
  rfl

/-- `F` does not see its operands complemented together, so only the other half's complement reaches the new right half. -/
theorem feistelRound_not (k : Subkey) (h : Halves) :
    feistelRound (~~~k) h.complement = (feistelRound k h).complement := by
  simp only [feistelRound, Halves.complement, roundF_not, BitVec.not_xor_left]

theorem roundKey_not {sk sk' : Vector Subkey 16} (hsk : ∀ r : Fin 16, sk'[r] = ~~~sk[r]) (dir : Direction) (r : Fin 16) :
    roundKey sk' dir r = ~~~roundKey sk dir r := by
  cases dir with
  | encrypt => exact hsk r
  | decrypt => exact hsk r.rev

theorem feistel_not {sk sk' : Vector Subkey 16} (hsk : ∀ r : Fin 16, sk'[r] = ~~~sk[r]) (dir : Direction) (h : Halves) :
    feistel sk' dir h.complement = (feistel sk dir h).complement :=
  List.foldl_hom Halves.complement fun h r => by rw [roundKey_not hsk, feistelRound_not]

/-! ### The statements on the block transform -/

/-- Settles O23: transpositions bit by bit, with the halves as an append, and the rounds' subkeys listed in each direction. -/
theorem blockTransformStepByStep : Obligations.BlockTransformStepByStep := by
  refine ⟨fun b j => ⟨loadHalves_l_getLsbD b j, loadHalves_r_getLsbD b j⟩, fun _ _ => rfl,
    fun sk h => ⟨feistel_encrypt sk h, feistel_decrypt sk h⟩, fun t h j => ?_, fun _ _ _ _ => rfl⟩
  rw [mergeHalves_eq, transpose64_getLsbD]

/-- Settles O24: the rounds in reverse order undo the rounds, and `FINAL` and `IP` undo each other; two functions that undo
each other are bijections. -/
theorem blockTransformInverts : Obligations.BlockTransformInverts := by
  intro t ht key
  have hdec : Function.LeftInverse (fun b => desBlock t b key .decrypt) fun b => desBlock t b key .encrypt :=
    desBlock_decrypt_encrypt ht key
  have henc : Function.LeftInverse (fun b => desBlock t b key .encrypt) fun b => desBlock t b key .decrypt :=
    desBlock_encrypt_decrypt ht key
  exact ⟨hdec, henc, ⟨hdec.injective, henc.surjective⟩, ⟨henc.injective, hdec.surjective⟩⟩

/-- Settles O25: every step carries complemented halves through, and the complemented key has the complemented subkeys. -/
theorem blockTransformComplements : Obligations.BlockTransformComplements := by
  intro t b key dir
  rw [desBlock, desBlock, loadHalves_not, feistel_not (subkeysOf_not key), mergeHalves_complement]

/-- Settles O26: equal subkeys read the same in both orders, so decryption, which undoes encryption, is encryption. -/
theorem equalSubkeysMakeSelfInverse : Obligations.EqualSubkeysMakeSelfInverse := by
  intro t key ht hkeys b
  refine ⟨desBlock_direction_irrelevant hkeys t b, ?_⟩
  rw [desBlock_direction_irrelevant hkeys t (desBlock t b key .encrypt), desBlock_decrypt_encrypt ht]

/-- Settles O27: encryption is evaluated; decryption of its answer follows from the inverse law. -/
theorem knownAnswer : Obligations.KnownAnswer := by
  have henc : desBlock finalAfterInit 0x0123456789ABCDEF 0x133457799BBCDFF1 .encrypt = 0x85E813540F0AB405 := by
    decide +kernel
  have hdec := desBlock_decrypt_encrypt finalAfterInit_inverseOfIP 0x133457799BBCDFF1 0x0123456789ABCDEF
  rw [henc] at hdec
  exact ⟨henc, hdec⟩

end Sys2Proof.Machine
end

section
/-! PROOFS. The length rule and the refusal of a wide length, and a CBC operation from its block steps to the state at its
end; then the statements on LEN and on the operations as wholes (45_cbc.md R87, R90, R93). -/

namespace Sys2Proof.Machine

/-! ### LEN and the width of a length (R87, D11) -/

theorem lenOf_eq_add (n : Nat) : lenOf n = n + (8 - n % 8) % 8 := by
  rw [lenOf]; omega

/-- A multiple of 8 is its own LEN. -/
theorem lenOf_of_mod_eight_eq_zero {n : Nat} (h : n % 8 = 0) : lenOf n = n := by
  rw [lenOf]; omega

theorem lengthTooWide_eq_true (s : State) (n : Nat) : lengthTooWide s.lenw n = true ↔ ¬ s.LengthFits n := by
  rw [← Bool.not_eq_false, lengthTooWide_eq_false, State.LengthFits]

section
variable {s : State} {n : Nat}

theorem exec_len_of_fits (h : s.LengthFits n) : exec (.len n) s = .next (s.respond (.n (lenOf n))) := by
  rw [exec_len, execLen, (lengthTooWide_eq_false s.lenw n).2 h]
  rfl

theorem exec_len_of_not_fits (h : ¬ s.LengthFits n) : exec (.len n) s = .refused .lengthTooWide := by
  rw [exec_len, execLen, if_pos ((lengthTooWide_eq_true s n).2 h)]

/-- A length operand of more than `LENW` bits is above `2^LENW - 8`. -/
theorem not_lengthFits_of_illFormed (h : fitsLenw s.lenw n = false) : ¬ s.LengthFits n := by
  intro hfits
  cases hw : s.lenw with
  | none => simp [fitsLenw, hw] at h
  | some w =>
    have hle : 2 ^ w ≤ n := by simpa [fitsLenw, hw] using h
    have := hfits w hw
    omega

theorem lengthFits_of_unbounded (h : s.lenw = none) : s.LengthFits n :=
  fun w hw => by rw [h] at hw; cases hw

/-- A CBC operation is refused for its length once INIT has run, whatever the buffer. -/
theorem cbcRefusal_eq_lengthTooWide :
    s.cbcRefusal n = some .lengthTooWide ↔ s.initDone = true ∧ ¬ s.LengthFits n := by
  rw [← lengthTooWide_eq_true]
  cases hdone : s.initDone with
  | false => simp [State.cbcRefusal, State.usedBeforeInit, hdone]
  | true =>
    cases hwide : lengthTooWide s.lenw n with
    | false => simp [State.cbcRefusal, State.usedBeforeInit, hdone, hwide]
    | true => simp [State.cbcRefusal, State.usedBeforeInit, hdone, hwide]

theorem cbcOperation_refused_of_not_readyFor {din : List Byte} (h : ¬ s.ReadyFor din.length) (dir : Direction)
    (iv : Block) (key : Key) : ∃ r, cbcOperation dir iv key din s = .refused r := by
  obtain ⟨r, -, hr⟩ | ⟨hnone, -⟩ := cbcOperation_cases s dir iv key din
  · exact ⟨r, hr⟩
  · exact absurd ((cbcRefusal_eq_none s din.length).1 hnone) h

theorem exec_illFormed_refused {i : Instr} (h : i.wellFormed s.lenw = false) : ∃ r, exec i s = .refused r := by
  cases i with
  | init => cases h
  | len n => exact ⟨_, exec_len_of_not_fits (not_lengthFits_of_illFormed h)⟩
  | cbcEnc iv key din =>
    exact cbcOperation_refused_of_not_readyFor (fun hs => not_lengthFits_of_illFormed h hs.length_fits) ..
  | cbcDec iv key din =>
    exact cbcOperation_refused_of_not_readyFor (fun hs => not_lengthFits_of_illFormed h hs.length_fits) ..

theorem cbcOperation_eq_lengthTooWide (dir : Direction) (iv : Block) (key : Key) (din : List Byte) :
    cbcOperation dir iv key din s = .refused .lengthTooWide ↔ s.initDone = true ∧ ¬ s.LengthFits din.length :=
  (cbcOperation_refused ..).trans cbcRefusal_eq_lengthTooWide

theorem exec_ne_lengthTooWide_of_unbounded (h : s.lenw = none) (i : Instr) : exec i s ≠ .refused .lengthTooWide := by
  have hfits (n : Nat) : s.LengthFits n := lengthFits_of_unbounded h
  cases i with
  | init => rw [exec_init]; exact nofun
  | len n => rw [exec_len_of_fits (hfits n)]; exact nofun
  | cbcEnc iv key din => exact fun hr => ((cbcOperation_eq_lengthTooWide ..).1 hr).2 (hfits _)
  | cbcDec iv key din => exact fun hr => ((cbcOperation_eq_lengthTooWide ..).1 hr).2 (hfits _)

end

theorem wellFormed_of_unbounded (i : Instr) : i.wellFormed none = true := by
  cases i <;> rfl

/-! ### The state at the end of a CBC operation (R18, R19, R90) -/

/-- The state after a CBC operation that answered `out`: of the operation only its response is left, and the working
registers are released. -/
def State.afterCbc (s : State) (out : List Byte) : State :=
  { s.releaseRegisters with held := none, dout := [], responses := s.responses ++ [.x out] }

section
variable (s : State) (out : List Byte)

@[simp] theorem State.afterCbc_final : (s.afterCbc out).final = s.final := rfl
@[simp] theorem State.afterCbc_initDone : (s.afterCbc out).initDone = s.initDone := rfl
@[simp] theorem State.afterCbc_cap : (s.afterCbc out).cap = s.cap := rfl
@[simp] theorem State.afterCbc_lenw : (s.afterCbc out).lenw = s.lenw := rfl
@[simp] theorem State.afterCbc_responses : (s.afterCbc out).responses = s.responses ++ [.x out] := rfl

end

/-- Block steps leave no trace past the end of an operation but their output. -/
theorem State.endCbc_runBlocks_beginCbc (s : State) (dir : Direction) (iv : Block) (key : Key) (din : List Byte)
    (k : Nat) : (State.runBlocks k (s.beginCbc dir iv key din)).endCbc =
      s.afterCbc (State.runBlocks k (s.beginCbc dir iv key din)).dout := by
  simp [State.endCbc, State.afterCbc, State.respond, State.releaseRegisters]

theorem cbcOperation_completes {s : State} {din : List Byte} (h : s.ReadyFor din.length) (dir : Direction) (iv : Block)
    (key : Key) : cbcOperation dir iv key din s = .next (s.afterCbc (cbcOutput s.final dir iv key din)) := by
  rw [cbcOperation_of_readyFor h, State.endCbc_runBlocks_beginCbc, State.runBlocks_beginCbc_dout]

/-! ### The block counter (R93) -/

theorem State.runBlocks_blockIx {s : State} {h : Held} (hs : s.held = some h) (k : Nat) :
    (State.runBlocks k s).blockIx = s.blockIx + k := by
  induction k generalizing s with
  | zero => rfl
  | succ k ih => rw [State.runBlocks_succ, ih (by simpa using hs), State.blockStep_blockIx hs]; omega

/-- Any number of block steps of an operation give 8 bytes each (R93). -/
theorem State.runBlocks_beginCbc_dout_length (s : State) (dir : Direction) (iv : Block) (key : Key) (din : List Byte)
    (k : Nat) : (State.runBlocks k (s.beginCbc dir iv key din)).dout.length = 8 * k := by
  rw [State.runBlocks_dout (State.beginCbc_held ..) k rfl]
  simp [List.length_flatMap, Nat.mul_comm]

/-! ### The statements on LEN and on whole operations -/

/-- Settles O29: the state at the end of a CBC operation is that of its block steps, whose DOUT is the chained output. -/
theorem cbcEncCompletes : Obligations.CbcEncCompletes :=
  fun iv key _ _ hs => cbcOperation_completes hs .encrypt iv key

/-- Settles O30: as CBC.ENC, in the other direction. -/
theorem cbcDecCompletes : Obligations.CbcDecCompletes :=
  fun iv key _ _ hs => cbcOperation_completes hs .decrypt iv key

/-- Settles O31: a block step counts one block, appends 8 bytes and leaves the rest, so `k` of them do by induction. -/
theorem blockStepsReachTheResult : Obligations.BlockStepsReachTheResult := by
  intro dir iv key din s k
  refine ⟨?_, State.runBlocks_beginCbc_dout_length .., ?_, ?_, ?_, ?_⟩
  · rw [State.runBlocks_blockIx (State.beginCbc_held ..), State.beginCbc_blockIx, Nat.zero_add]
  · rw [State.runBlocks_held, State.beginCbc_held]
  · rw [State.runBlocks_final, State.beginCbc_final]
  · rw [State.runBlocks_initDone, State.beginCbc_initDone]
  · rintro rfl
    exact State.runBlocks_beginCbc_dout ..

/-- Settles O28: LEN responds where the length fits and is refused elsewhere; the laws are arithmetic, the values evaluated. -/
theorem lenRoundsUp : Obligations.LenRoundsUp := by
  refine ⟨fun n s hs => ?_, fun n w s hw hwide => exec_len_of_not_fits fun hfits => ?_, fun n => ?_, by decide⟩
  · rw [exec_len_of_fits hs, lenOf_eq_add]
    rfl
  · exact absurd (hfits w hw) (Nat.not_le.2 hwide)
  · have hadd := lenOf_eq_add n
    exact ⟨hadd, rfl, by omega, by omega, lenOf_mod_eight n, lenOf_of_mod_eight_eq_zero (lenOf_mod_eight n)⟩

/-- Settles O46: the refusals of a CBC operation in their order, and an operand of more than LENW bits never fits. -/
theorem wideLengthIsRefused : Obligations.WideLengthIsRefused :=
  fun iv key din _ => ⟨cbcOperation_eq_lengthTooWide .encrypt iv key din,
    cbcOperation_eq_lengthTooWide .decrypt iv key din, fun _ => exec_illFormed_refused,
    fun h i => ⟨h ▸ wellFormed_of_unbounded i, exec_ne_lengthTooWide_of_unbounded h i⟩⟩

end Sys2Proof.Machine
end

section
/-! PROOFS. DIN in whole blocks, the chained blocks one by one, over a concatenation and under a change, and the two directions
undoing each other; then the statements on padding, chaining and its laws (45_cbc.md R88 to R96). -/

namespace Sys2Proof.Machine

/-! ### The blocks of DIN, and zero padding (R88, R89) -/

/-- Byte `k` of block `n` is byte `8n + k` of DIN, or zero where there is none. -/
theorem blockAt_getLsbD {din : List Byte} {n k j : Nat} (hn : n < numBlocks din.length) (hk : k < 8) (hj : j < 8) :
    (blockAt din n).getLsbD (8 * k + j) = (din[8 * n + k]?.getD 0).getLsbD j := by
  have hdiv : (8 * k + j) / 8 = k := by omega
  have hmod : (8 * k + j) % 8 = j := by omega
  have hlt : 8 * k + j < 64 := by omega
  have hcount : n < (din.length + 7) / 8 := by rwa [numBlocks_eq] at hn
  rw [blockAt]
  split
  next => rw [memRead_getLsbD, hdiv, hmod]; simp [hlt, hk]
  next =>
    rw [memRead_getLsbD, hdiv, hmod]
    by_cases hrest : k < din.length % 8
    · simp [hlt, hrest]
    · have hnone : din[8 * n + k]? = none := List.getElem?_eq_none (by omega)
      simp [hrest, hnone]

theorem zeroPad_length (din : List Byte) : (zeroPad din).length = lenOf din.length := by
  have hle : din.length ≤ lenOf din.length := by rw [lenOf]; omega
  rw [zeroPad, List.length_append, List.length_replicate, Nat.add_sub_cancel' hle]

theorem numBlocks_zeroPad (din : List Byte) : numBlocks (zeroPad din).length = numBlocks din.length := by
  rw [zeroPad_length, numBlocks, lenOf_of_mod_eight_eq_zero (lenOf_mod_eight _), numBlocks]

/-- Padding adds no byte that is not read as zero without it. -/
theorem zeroPad_getElem?_getD (din : List Byte) (i : Nat) : (zeroPad din)[i]?.getD 0 = din[i]?.getD 0 := by
  rw [zeroPad]
  by_cases hi : i < din.length
  · rw [List.getElem?_append_left hi]
  · have hnone : din[i]? = none := List.getElem?_eq_none (Nat.le_of_not_lt hi)
    rw [List.getElem?_append_right (Nat.le_of_not_lt hi), List.getElem?_replicate, hnone]
    split <;> rfl

theorem blockAt_zeroPad {din : List Byte} {n : Nat} (hn : n < numBlocks din.length) :
    blockAt (zeroPad din) n = blockAt din n := by
  refine BitVec.eq_of_getLsbD_eq fun i hi => ?_
  rw [← Nat.div_add_mod i 8, blockAt_getLsbD ((numBlocks_zeroPad din).symm ▸ hn) (by omega) (by omega),
    blockAt_getLsbD hn (by omega) (by omega), zeroPad_getElem?_getD]

@[simp] theorem inputBlocks_zeroPad (din : List Byte) : inputBlocks (zeroPad din) = inputBlocks din := by
  rw [inputBlocks, inputBlocks, numBlocks_zeroPad]
  exact List.map_congr_left fun n hn => blockAt_zeroPad (List.mem_range.1 hn)

theorem zeroPad_of_mod_eight_eq_zero {din : List Byte} (h : din.length % 8 = 0) : zeroPad din = din := by
  rw [zeroPad, lenOf_of_mod_eight_eq_zero h, Nat.sub_self, List.replicate_zero, List.append_nil]

/-- Bytes whose number is a multiple of 8 are whole blocks, unpacked. -/
theorem exists_eq_flatMap_unpack {n : Nat} {bytes : List Byte} (h : bytes.length = 8 * n) :
    ∃ bs : List Block, bytes = bs.flatMap unpack := by
  induction n generalizing bytes with
  | zero => exact ⟨[], List.eq_nil_of_length_eq_zero h⟩
  | succ n ih =>
    obtain ⟨bs, hbs⟩ := ih (bytes := bytes.drop 8) (by rw [List.length_drop]; omega)
    have hfirst : (bytes.take 8).length = 8 := List.length_take_of_le (by omega)
    refine ⟨pack (bytes.take 8) :: bs, ?_⟩
    rw [List.flatMap_cons, unpack_pack hfirst, ← hbs, List.take_append_drop]

/-- Whole blocks cut and concatenated again are the input. -/
theorem flatMap_unpack_inputBlocks {din : List Byte} (h : din.length % 8 = 0) :
    (inputBlocks din).flatMap unpack = din := by
  obtain ⟨bs, rfl⟩ := exists_eq_flatMap_unpack (Nat.eq_mul_of_div_eq_right (Nat.dvd_of_mod_eq_zero h) rfl)
  rw [inputBlocks_flatMap_unpack]

/-- The blocks of any input, unpacked, are the zero-padded input. -/
theorem flatMap_unpack_inputBlocks_eq_zeroPad (din : List Byte) : (inputBlocks din).flatMap unpack = zeroPad din := by
  rw [← inputBlocks_zeroPad, flatMap_unpack_inputBlocks (by rw [zeroPad_length, lenOf_mod_eight])]

theorem inputBlocks_flatMap_unpack_append (bs : List Block) (bytes : List Byte) :
    inputBlocks (bs.flatMap unpack ++ bytes) = bs ++ inputBlocks bytes := by
  induction bs with
  | nil => rfl
  | cons b bs ih => rw [List.flatMap_cons, List.append_assoc, inputBlocks_unpack_append, ih, List.cons_append]

/-- The last 8 bytes of whole blocks, packed, are the last block. -/
theorem pack_last_eight_bytes (bs : List Block) (b : Block) :
    pack (((bs ++ [b]).flatMap unpack).drop (((bs ++ [b]).flatMap unpack).length - 8)) = b := by
  rw [List.flatMap_append, List.flatMap_singleton, List.length_append, unpack_length, Nat.add_sub_cancel,
    List.drop_left, pack_unpack]

/-! ### The chained blocks, one by one and over a concatenation (R91, R92) -/

/-- A block step of an operation in the direction `dir`: the new chaining value and the block written. -/
theorem State.blockStep_of_dir {s : State} {h : Held} (hs : s.held = some h) {dir : Direction} (hdir : h.dir = dir) :
    let b := blockAt h.din s.blockIx
    let out := cbcBlock s.final dir h.key s.chain b
    s.blockStep.chain = chainNext dir b out ∧ s.blockStep.dout = memWrite s.dout (8 * s.blockIx) out := by
  subst hdir
  exact ⟨State.blockStep_chain hs, State.blockStep_dout hs⟩

@[simp] theorem chainNext_encrypt (b out : Block) : chainNext .encrypt b out = out := rfl

@[simp] theorem chainNext_decrypt (b out : Block) : chainNext .decrypt b out = b := rfl

section
variable (t : Table 64) (dir : Direction) (key : Key) (chain : Block)

/-- The chaining value after the blocks `bs`, from `chain` on. -/
def chainAfter (bs : List Block) : Block :=
  bs.foldl (fun c b => chainNext dir b (cbcBlock t dir key c b)) chain

theorem chainAfter_cons (b : Block) (bs : List Block) : chainAfter t dir key chain (b :: bs) =
    chainAfter t dir key (chainNext dir b (cbcBlock t dir key chain b)) bs := rfl

theorem chainAfter_concat (bs : List Block) (b : Block) : chainAfter t dir key chain (bs ++ [b]) =
    chainNext dir b (cbcBlock t dir key (chainAfter t dir key chain bs) b) :=
  List.foldl_concat ..

theorem cbcBlocks_append (bs bs' : List Block) : cbcBlocks t dir key chain (bs ++ bs') =
    cbcBlocks t dir key chain bs ++ cbcBlocks t dir key (chainAfter t dir key chain bs) bs' := by
  induction bs generalizing chain with
  | nil => rfl
  | cons b bs ih => rw [List.cons_append, cbcBlocks_cons, cbcBlocks_cons, chainAfter_cons, List.cons_append, ih]

/-- Output block `n` is the block step of input block `n` under the chaining value that the blocks before it leave. -/
theorem cbcBlocks_getElem? (bs : List Block) (n : Nat) : (cbcBlocks t dir key chain bs)[n]? =
    bs[n]?.map (cbcBlock t dir key (chainAfter t dir key chain (bs.take n))) := by
  induction bs generalizing chain n with
  | nil => rfl
  | cons b bs ih =>
    rw [cbcBlocks_cons]
    cases n with
    | zero => rfl
    | succ n => exact ih (chainNext dir b (cbcBlock t dir key chain b)) n

theorem cbcBlocks_getElem?_zero {bs : List Block} {b : Block} (hb : bs[0]? = some b) :
    (cbcBlocks t dir key chain bs)[0]? = some (cbcBlock t dir key chain b) := by
  rw [cbcBlocks_getElem?, hb]
  rfl

variable {t dir key chain}

/-- Output block `n + 1` is chained to block `n`. -/
theorem cbcBlocks_getElem?_succ {bs : List Block} {n : Nat} {b b' c : Block} (hb : bs[n]? = some b)
    (hb' : bs[n + 1]? = some b') (hc : (cbcBlocks t dir key chain bs)[n]? = some c) :
    (cbcBlocks t dir key chain bs)[n + 1]? = some (cbcBlock t dir key (chainNext dir b c) b') := by
  rw [cbcBlocks_getElem?, hb, Option.map_some, Option.some_inj] at hc
  rw [cbcBlocks_getElem?, hb', List.take_add_one, hb, Option.toList_some, chainAfter_concat, hc, Option.map_some]

end

/-- To encrypt, the chaining value is the XOR of the `iv` and all encrypted blocks (R91). -/
theorem chainAfter_encrypt (t : Table 64) (key : Key) (iv : Block) (ps : List Block) :
    chainAfter t .encrypt key iv ps = ps.foldl (fun a p => a ^^^ desBlock t p key .encrypt) iv := by
  rw [chainAfter]
  refine congrArg (fun f => List.foldl f iv ps) (funext fun c => funext fun p => ?_)
  exact BitVec.xor_comm ..

theorem cbcBlocks_encrypt_getElem? (t : Table 64) (key : Key) (iv : Block) {ps : List Block} {n : Nat}
    (hn : n < ps.length) :
    (cbcBlocks t .encrypt key iv ps)[n]? = some (chainAfter t .encrypt key iv (ps.take (n + 1))) := by
  rw [cbcBlocks_getElem?, List.take_add_one, List.getElem?_eq_getElem hn, Option.toList_some, chainAfter_concat,
    chainNext_encrypt, Option.map_some]

/-- A message that goes on after whole blocks goes on under the chaining value they leave (R95, R120). -/
theorem cbcOutput_flatMap_unpack_append (t : Table 64) (dir : Direction) (iv : Block) (key : Key) (bs : List Block)
    (bytes : List Byte) : cbcOutput t dir iv key (bs.flatMap unpack ++ bytes) =
      cbcOutput t dir iv key (bs.flatMap unpack) ++ cbcOutput t dir (chainAfter t dir key iv bs) key bytes := by
  rw [cbcOutput, cbcOutput, cbcOutput, inputBlocks_flatMap_unpack_append, inputBlocks_flatMap_unpack, cbcBlocks_append,
    List.flatMap_append]

/-- Encrypting whole blocks, the last 8 output bytes are the chaining value left. -/
theorem pack_last_output_bytes {t : Table 64} {iv : Block} {key : Key} {bs : List Block} {b : Block} {out : List Byte}
    (hout : out = cbcOutput t .encrypt iv key ((bs ++ [b]).flatMap unpack)) :
    pack (out.drop (out.length - 8)) = chainAfter t .encrypt key iv (bs ++ [b]) := by
  rw [hout, cbcOutput, inputBlocks_flatMap_unpack, cbcBlocks_append, cbcBlocks_cons, cbcBlocks_nil,
    pack_last_eight_bytes, chainAfter_concat, chainNext_encrypt]

/-! ### The two directions undo each other (R95) -/

/-- Two directions whose block steps undo each other under one chaining value, and pass on the same one, undo each other on
whole messages. -/
theorem cbcBlocks_undo {t : Table 64} {key : Key} {dir dir' : Direction}
    (hblock : ∀ chain b, cbcBlock t dir' key chain (cbcBlock t dir key chain b) = b)
    (hnext : ∀ b out, chainNext dir' out b = chainNext dir b out) (iv : Block) (bs : List Block) :
    cbcBlocks t dir' key iv (cbcBlocks t dir key iv bs) = bs := by
  induction bs generalizing iv with
  | nil => rfl
  | cons b bs ih => rw [cbcBlocks_cons, cbcBlocks_cons, hblock, hnext, ih]

section
variable {t : Table 64} (ht : InverseOfIP t) (key : Key)
include ht

theorem cbcBlock_decrypt_encrypt (chain b : Block) :
    cbcBlock t .decrypt key chain (cbcBlock t .encrypt key chain b) = b := by
  rw [cbcBlock_decrypt, cbcBlock_encrypt, BitVec.xor_assoc, BitVec.xor_self, BitVec.xor_zero,
    desBlock_decrypt_encrypt ht]

theorem cbcBlock_encrypt_decrypt (chain b : Block) :
    cbcBlock t .encrypt key chain (cbcBlock t .decrypt key chain b) = b := by
  rw [cbcBlock_encrypt, cbcBlock_decrypt, desBlock_encrypt_decrypt ht, BitVec.xor_assoc, BitVec.xor_self,
    BitVec.xor_zero]

theorem cbcOutput_decrypt_encrypt (iv : Block) (din : List Byte) :
    cbcOutput t .decrypt iv key (cbcOutput t .encrypt iv key din) = zeroPad din := by
  rw [cbcOutput, cbcOutput, inputBlocks_flatMap_unpack,
    cbcBlocks_undo (cbcBlock_decrypt_encrypt ht key) fun _ _ => rfl, flatMap_unpack_inputBlocks_eq_zeroPad]

theorem cbcOutput_encrypt_decrypt (iv : Block) (din : List Byte) :
    cbcOutput t .encrypt iv key (cbcOutput t .decrypt iv key din) = zeroPad din := by
  rw [cbcOutput, cbcOutput, inputBlocks_flatMap_unpack,
    cbcBlocks_undo (cbcBlock_encrypt_decrypt ht key) fun _ _ => rfl, flatMap_unpack_inputBlocks_eq_zeroPad]

end

/-- What fits one operation fits the next, on its output. -/
theorem State.ReadyFor.afterCbc {s : State} {n : Nat} (hs : s.ReadyFor n) (hlen : s.LengthFits (lenOf n))
    (out : List Byte) : (s.afterCbc out).ReadyFor (lenOf n) := by
  obtain ⟨hdone, -, hbuffer⟩ := hs
  refine ⟨hdone, hlen, fun c hc => ?_⟩
  rw [lenOf_of_mod_eight_eq_zero (lenOf_mod_eight n)]
  exact hbuffer c hc

/-- Two operations, the second on the output of the first. -/
theorem cbcOperation_twice {s : State} {din : List Byte} (hs : s.ReadyFor din.length)
    (hlen : s.LengthFits (lenOf din.length)) (dir dir' : Direction) (iv : Block) (key : Key) {back : List Byte}
    (hback : cbcOutput s.final dir' iv key (cbcOutput s.final dir iv key din) = back) :
    ∃ s1 out s2, cbcOperation dir iv key din s = .next s1 ∧ s1.responses = s.responses ++ [.x out] ∧
      cbcOperation dir' iv key out s1 = .next s2 ∧ s2.responses = s1.responses ++ [.x back] := by
  have hready := hs.afterCbc hlen (cbcOutput s.final dir iv key din)
  rw [← cbcOutput_length s.final dir iv key] at hready
  refine ⟨_, _, _, cbcOperation_completes hs dir iv key, State.afterCbc_responses ..,
    cbcOperation_completes hready dir' iv key, ?_⟩
  rw [State.afterCbc_responses, State.afterCbc_final, hback]

/-! ### What a change of a block or of the `iv` changes (R96) -/

/-- To encrypt, a difference of the `iv` reaches every output block. -/
theorem cbcBlocks_encrypt_xor_iv (t : Table 64) (key : Key) (iv d : Block) (bs : List Block) :
    cbcBlocks t .encrypt key (iv ^^^ d) bs = (cbcBlocks t .encrypt key iv bs).map (· ^^^ d) := by
  induction bs generalizing iv with
  | nil => rfl
  | cons b bs ih =>
    have hblock : cbcBlock t .encrypt key (iv ^^^ d) b = cbcBlock t .encrypt key iv b ^^^ d := by
      rw [cbcBlock_encrypt, cbcBlock_encrypt, BitVec.xor_assoc]
    rw [cbcBlocks_cons, cbcBlocks_cons, List.map_cons, hblock]
    exact congrArg _ (ih (cbcBlock t .encrypt key iv b))

/-- To encrypt, a change of the first block is that difference of the `iv` which makes the same first output block. -/
theorem cbcBlocks_encrypt_change_head (t : Table 64) (key : Key) (iv b b' : Block) (bs : List Block) :
    cbcBlocks t .encrypt key iv (b' :: bs) = (cbcBlocks t .encrypt key iv (b :: bs)).map
      (· ^^^ (desBlock t b key .encrypt ^^^ desBlock t b' key .encrypt)) := by
  have hblock : cbcBlock t .encrypt key iv b' =
      cbcBlock t .encrypt key (iv ^^^ (desBlock t b key .encrypt ^^^ desBlock t b' key .encrypt)) b := by
    rw [cbcBlock_encrypt, cbcBlock_encrypt, BitVec.xor_comm iv, ← BitVec.xor_assoc, ← BitVec.xor_assoc, BitVec.xor_self,
      BitVec.zero_xor]
  rw [← cbcBlocks_encrypt_xor_iv, cbcBlocks_cons, cbcBlocks_cons, hblock]
  rfl

section
variable {t : Table 64} (ht : InverseOfIP t) (key : Key)
include ht

theorem desBlock_encrypt_injective : Function.Injective fun b => desBlock t b key .encrypt :=
  Function.LeftInverse.injective (g := fun b => desBlock t b key .decrypt) (desBlock_decrypt_encrypt ht key)

theorem desBlock_decrypt_injective : Function.Injective fun b => desBlock t b key .decrypt :=
  Function.LeftInverse.injective (g := fun b => desBlock t b key .encrypt) (desBlock_encrypt_decrypt ht key)

theorem cbcBlock_decrypt_inj {chain chain' b b' : Block} :
    cbcBlock t .decrypt key chain b = cbcBlock t .decrypt key chain' b' ↔ b ^^^ chain = b' ^^^ chain' :=
  (desBlock_decrypt_injective ht key).eq_iff

/-- To decrypt, a difference of the `iv` reaches output block 0 and no other. -/
theorem cbcBlocks_decrypt_iv_ne_iff {iv iv' : Block} (hiv : iv ≠ iv') {bs : List Block} {n : Nat} (hn : n < bs.length) :
    (cbcBlocks t .decrypt key iv' bs)[n]? ≠ (cbcBlocks t .decrypt key iv bs)[n]? ↔ n = 0 := by
  cases bs with
  | nil => cases hn
  | cons b bs =>
    rw [cbcBlocks_cons, cbcBlocks_cons]
    cases n with
    | zero => simpa [cbcBlock_decrypt_inj ht, BitVec.xor_right_inj] using hiv.symm
    | succ n => simp

/-- To decrypt, a change of block `N` reaches output blocks `N` and `N + 1` and no other. -/
theorem cbcBlocks_decrypt_change_ne_iff (iv : Block) {cs qs : List Block} {b b' : Block} (hb : b ≠ b') {n : Nat}
    (hn : n < (cs ++ b :: qs).length) :
    (cbcBlocks t .decrypt key iv (cs ++ b' :: qs))[n]? ≠ (cbcBlocks t .decrypt key iv (cs ++ b :: qs))[n]? ↔
      n = cs.length ∨ n = cs.length + 1 := by
  rw [cbcBlocks_append, cbcBlocks_append, cbcBlocks_cons, cbcBlocks_cons, chainNext_decrypt, chainNext_decrypt]
  obtain hbefore | ⟨k, rfl⟩ := (Nat.lt_or_ge n cs.length).imp_right Nat.exists_eq_add_of_le
  · rw [List.getElem?_append_left (by simpa using hbefore), List.getElem?_append_left (by simpa using hbefore)]
    exact iff_of_false (fun hne => hne rfl) (by omega)
  · rw [List.getElem?_append_right (by simp), List.getElem?_append_right (by simp), cbcBlocks_length,
      Nat.add_sub_cancel_left]
    cases k with
    | zero => simpa [cbcBlock_decrypt_inj ht, BitVec.xor_left_inj] using hb.symm
    | succ k =>
      have hk : k < qs.length := by simp at hn; omega
      rw [List.getElem?_cons_succ, List.getElem?_cons_succ, cbcBlocks_decrypt_iv_ne_iff ht key hb hk]
      omega

end

/-! ### The statements on padding, chaining and its laws -/

/-- Settles O34: by the bytes that MemRead packs for a full and for a partial block; the number of blocks is arithmetic. -/
theorem inputIsCutIntoBlocks : Obligations.InputIsCutIntoBlocks := by
  refine ⟨fun _ _ _ _ hn hk hj => blockAt_getLsbD hn hk hj, fun len => ?_, rfl⟩
  rw [numBlocks_eq]
  split <;> omega

/-- Settles O35: the padded input has the same blocks, and the output sees the blocks only. -/
theorem paddingIsNotMarked : Obligations.PaddingIsNotMarked := by
  intro t dir iv key din
  rw [cbcOutput, cbcOutput, inputBlocks_zeroPad]

/-- Settles O32: the block step's equation to encrypt, and output block `n` as the chaining value after `n + 1` blocks. -/
theorem encryptChaining : Obligations.EncryptChaining := by
  refine ⟨fun _ _ _ => rfl, fun s h hs hdir => ?_, fun t key iv ps => ⟨cbcBlocks_length .., fun p hp => ?_,
    fun n p c hp hc => ?_, fun n hn => ?_⟩⟩
  · exact State.blockStep_of_dir hs hdir
  · exact cbcBlocks_getElem?_zero t .encrypt key iv hp
  · have hn : n < ps.length := Nat.lt_of_succ_lt (List.getElem?_eq_some_iff.1 hp).1
    have hnext := cbcBlocks_getElem?_succ (List.getElem?_eq_getElem hn) hp hc
    rwa [chainNext_encrypt, cbcBlock_encrypt] at hnext
  · rw [cbcBlocks_encrypt_getElem? t key iv hn, chainAfter_encrypt]

/-- Settles O33: the block step's equation to decrypt, whose chaining value is the input block. -/
theorem decryptChaining : Obligations.DecryptChaining := by
  refine ⟨fun _ _ _ => rfl, fun s h hs hdir => ?_, fun t key iv cs => ⟨cbcBlocks_length .., fun c hc => ?_,
    fun n c c' hc hc' => ?_⟩⟩
  · exact State.blockStep_of_dir hs hdir
  · exact cbcBlocks_getElem?_zero t .decrypt key iv hc
  · have hout := cbcBlocks_getElem? t .decrypt key iv cs n
    rw [hc, Option.map_some] at hout
    have hnext := cbcBlocks_getElem?_succ hc hc' hout
    rwa [chainNext_decrypt, cbcBlock_decrypt] at hnext

/-- Settles O38: the output of the first operation has the chained blocks, and decrypting these gives the input's blocks,
which unpacked are the padded input. -/
theorem roundTripGivesThePaddedInput : Obligations.RoundTripGivesThePaddedInput := by
  intro iv key din s hs hlen ht
  exact cbcOperation_twice hs hlen .encrypt .decrypt iv key (cbcOutput_decrypt_encrypt ht key iv din)

/-- Settles O39: encrypting undoes decrypting in the same way, and an input of whole blocks needs no padding. -/
theorem roundTripInTheOtherOrder : Obligations.RoundTripInTheOtherOrder := by
  intro iv key din s hs h8 ht
  have hlen : s.LengthFits (lenOf din.length) := (lenOf_of_mod_eight_eq_zero h8).symm ▸ hs.length_fits
  have hback := cbcOutput_encrypt_decrypt ht key iv din
  rw [zeroPad_of_mod_eight_eq_zero h8] at hback
  exact cbcOperation_twice hs hlen .decrypt .encrypt iv key hback

/-- Settles O40: the first part is whole blocks and has a last one; the chaining value it leaves is its last output block to
encrypt and its last input block to decrypt. -/
theorem chainContinuesOverTwoOperations : Obligations.ChainContinuesOverTwoOperations := by
  intro t iv key x1 x2 hne h8
  have hblocks := flatMap_unpack_inputBlocks h8
  obtain hnil | ⟨bs, b, hbs⟩ := List.eq_nil_or_concat' (inputBlocks x1)
  · rw [hnil] at hblocks
    exact absurd hblocks.symm hne
  · rw [hbs] at hblocks
    subst hblocks
    refine ⟨?_, ?_⟩
    · intro o1
      rw [pack_last_output_bytes (out := o1) rfl, cbcOutput_flatMap_unpack_append]
    · rw [pack_last_eight_bytes, cbcOutput_flatMap_unpack_append, chainAfter_concat, chainNext_decrypt]

/-- Settles O41: the blocks before are chained alone; from the changed block on every output block differs by the difference
of the two encrypted blocks, which is not zero because encryption is injective. -/
theorem encryptDifferenceIsCarriedAlong : Obligations.EncryptDifferenceIsCarriedAlong := by
  intro t key iv ps qs b b' ht hb
  refine ⟨fun hd => ?_, fun n hn => ?_, fun n c hn hc => ?_⟩
  · exact hb (desBlock_encrypt_injective ht key (BitVec.xor_eq_zero_iff.1 hd))
  · rw [cbcBlocks_append, cbcBlocks_append, List.getElem?_append_left (by simpa using hn),
      List.getElem?_append_left (by simpa using hn)]
  · rw [cbcBlocks_append, List.getElem?_append_right (by simpa using hn)] at hc
    rw [cbcBlocks_append, List.getElem?_append_right (by simpa using hn),
      cbcBlocks_encrypt_change_head t key _ b, List.getElem?_map, hc, Option.map_some]

/-- Settles O42: before the changed block nothing differs, its own output block does, and for the blocks after it the change is
one of the chaining value. -/
theorem decryptDifferenceStopsAfterOneBlock : Obligations.DecryptDifferenceStopsAfterOneBlock := by
  intro t key iv cs qs b b' ht hb ps ps' n hn
  have hn' : n < (cs ++ b :: qs).length := by rwa [cbcBlocks_length] at hn
  exact cbcBlocks_decrypt_change_ne_iff ht key iv hb hn'

/-- Settles O43: an encrypted block's XOR carries a difference of the `iv` on; a decrypted block leaves its input as the next
chaining value. -/
theorem ivDifference : Obligations.IvDifference := by
  intro t key iv iv' bs ht hiv
  refine ⟨fun n c hc => ?_, fun n hn => cbcBlocks_decrypt_iv_ne_iff ht key hiv hn⟩
  have hiv' : iv ^^^ (iv ^^^ iv') = iv' := by rw [← BitVec.xor_assoc, BitVec.xor_self, BitVec.zero_xor]
  have hmap := cbcBlocks_encrypt_xor_iv t key iv (iv ^^^ iv') bs
  rw [hiv'] at hmap
  rw [hmap, List.getElem?_map, hc, Option.map_some]

end Sys2Proof.Machine
end

section
/-! PROOFS. The two other refusals of a CBC operation, each as an exact condition, and what a session makes of a refusal; then
the statements on refusals and on answers (60_exceptions.md R100 to R106). -/

namespace Sys2Proof.Machine

/-! ### When a CBC operation is refused (R102, R103) -/

section
variable {s : State} {n : Nat}

/-- A buffer fails to take `LEN(n)` bytes exactly when there is one and it holds fewer. -/
theorem State.not_bufferFits : ¬ s.BufferFits n ↔ ∃ c, s.cap = some c ∧ c < lenOf n := by
  simp only [State.BufferFits, not_forall, Nat.not_le, exists_prop]

theorem bufferTooSmall_eq_true : bufferTooSmall s.cap n = true ↔ ¬ s.BufferFits n := by
  rw [← Bool.not_eq_false, bufferTooSmall_eq_false, State.BufferFits]

/-- Use before INIT is decided by the ghost flag alone, whatever the length and the buffer. -/
theorem cbcRefusal_eq_useBeforeInit : s.cbcRefusal n = some .useBeforeInit ↔ s.initDone = false := by
  cases hdone : s.initDone with
  | false => simp [State.cbcRefusal, State.usedBeforeInit, hdone]
  | true => simp [State.cbcRefusal, State.usedBeforeInit, hdone, ite_eq_iff]

/-- The buffer is the last check: it decides once INIT has run and the length fits. -/
theorem cbcRefusal_eq_outputBufferTooSmall : s.cbcRefusal n = some .outputBufferTooSmall ↔
    s.initDone = true ∧ s.LengthFits n ∧ ¬ s.BufferFits n := by
  rw [← bufferTooSmall_eq_true, State.LengthFits, ← lengthTooWide_eq_false]
  cases hdone : s.initDone with
  | false => simp [State.cbcRefusal, State.usedBeforeInit, hdone]
  | true => simp [State.cbcRefusal, State.usedBeforeInit, hdone, ite_eq_iff]

theorem cbcOperation_eq_useBeforeInit (dir : Direction) (iv : Block) (key : Key) (din : List Byte) :
    cbcOperation dir iv key din s = .refused .useBeforeInit ↔ s.initDone = false :=
  (cbcOperation_refused ..).trans cbcRefusal_eq_useBeforeInit

theorem cbcOperation_eq_outputBufferTooSmall (dir : Direction) (iv : Block) (key : Key) (din : List Byte) :
    cbcOperation dir iv key din s = .refused .outputBufferTooSmall ↔
      s.initDone = true ∧ s.LengthFits din.length ∧ ∃ c, s.cap = some c ∧ c < lenOf din.length := by
  rw [cbcOperation_refused, cbcRefusal_eq_outputBufferTooSmall, State.not_bufferFits]

/-- Without a bound on a length and without a buffer, INIT is all that a CBC operation needs. -/
theorem State.readyFor_of_unbounded (hlenw : s.lenw = none) (hcap : s.cap = none) (hdone : s.initDone = true) :
    s.ReadyFor n :=
  ⟨hdone, lengthFits_of_unbounded hlenw, fun c hc => by rw [hcap] at hc; cases hc⟩

end

/-! ### What a session makes of a refused CBC operation (R105, R106) -/

/-- A CBC operation, presented first and refused with the buffer it is presented with, is taken from what is presented and marks
the session, and nothing else changes. -/
theorem Session.serve_cbc_refused {s : State} {p : Presented} {rest : List Presented} {iv : Block} {key : Key}
    {din : List Byte} {r : Refusal} (hp : s.pending = p :: rest)
    (hdecode : decode p.command = .ok (.cbcEnc iv key din) ∨ decode p.command = .ok (.cbcDec iv key din))
    (hr : (s.take p rest).cbcRefusal din.length = some r) (marks : List Refusal) :
    Session.serve { state := s, marks := marks } = { state := { s with pending := rest }, marks := marks ++ [r] } := by
  have hstep : step s = .refused r := by
    obtain henc | hdec := hdecode
    · rw [step_of_decode_ok hp henc, exec_cbcEnc, cbcOperation_refused, hr]
    · rw [step_of_decode_ok hp hdec, exec_cbcDec, cbcOperation_refused, hr]
  rw [Session.serve_refused hstep, hp, List.tail_cons]

/-! ### The statements on refusals and answers -/

/-- Settles O44: use before INIT is the first check and reads the flag alone, which taking the operation leaves. -/
theorem cbcBeforeInitIsRefused : Obligations.CbcBeforeInitIsRefused := by
  intro iv key din s
  refine ⟨cbcOperation_eq_useBeforeInit .encrypt iv key din, cbcOperation_eq_useBeforeInit .decrypt iv key din,
    fun p rest marks hp hdone hdecode => Session.serve_cbc_refused hp hdecode ?_ marks⟩
  rw [cbcRefusal_eq_useBeforeInit, State.take_initDone, hdone]

/-- Settles O45: the buffer is the last check, and the one in force for an operation presented is the one it comes with. -/
theorem shortBufferIsRefused : Obligations.ShortBufferIsRefused := by
  intro iv key din s
  refine ⟨cbcOperation_eq_outputBufferTooSmall .encrypt iv key din,
    cbcOperation_eq_outputBufferTooSmall .decrypt iv key din,
    fun p rest marks c hp hdone hfits hcap hshort hdecode => Session.serve_cbc_refused hp hdecode ?_ marks⟩
  exact cbcRefusal_eq_outputBufferTooSmall.2 ⟨hdone, hfits, State.not_bufferFits.2 ⟨c, hcap, hshort⟩⟩

/-- Settles O47: with no bound and no buffer every length fits, so LEN responds, and after INIT every state is ready for a CBC
operation, which completes with the chained output. -/
theorem everyOperationAnswers : Obligations.EveryOperationAnswers := by
  refine ⟨nofun, fun s hlenw hcap => ⟨⟨_, exec_init s, rfl⟩,
    fun n => ⟨_, exec_len_of_fits (lengthFits_of_unbounded hlenw), rfl⟩, fun hdone iv key din => ?_⟩⟩
  have hready : s.ReadyFor din.length := State.readyFor_of_unbounded hlenw hcap hdone
  exact ⟨⟨_, cbcOperation_completes hready .encrypt iv key, State.afterCbc_responses ..⟩,
    ⟨_, cbcOperation_completes hready .decrypt iv key, State.afterCbc_responses ..⟩⟩

end Sys2Proof.Machine
end
